-- ==== Sys2Proof/Word.lean ====
section
/-! DEFINITION. The two widths of the machine (00_scope.md R5, R6): `u8` and `u16`. -/

namespace Sys2Proof

/-- `u8`: a register A, X, Y or SP, a memory cell, the status byte (R5, R6). -/
abbrev Byte := BitVec 8

/-- `u16`: an address or the PC (R5, R6). -/
abbrev Word := BitVec 16

end Sys2Proof
end

