-- ==== Sys2Proof/Config.lean ====
section
/-! DEFINITION. The parameters of a launch (00_scope.md R5) and the values the spec leaves free. -/

namespace Sys2Proof

/-- One event of the access history (20_memory.md R40): `(R, addr, value)` or `(W, addr, value)`. -/
inductive Access where
  | read (addr : Word) (value : Byte)
  | write (addr : Word) (value : Byte)
  deriving DecidableEq, Repr

/-- What stands behind a range of addresses (20_memory.md R45, R46). -/
inductive Backing where
  /-- Mirrored memory: the address at offset `d` of the range is the cell `base + d mod period`
  (period 0: `base + d`, no mirroring). -/
  | mirror (base : Word) (period : Nat)
  /-- A device with read side effects or with values supplied from outside: it answers as an oracle. -/
  | peripheral
  deriving DecidableEq, Repr

/-- A range of addresses, `first` and `last` included, and what stands behind it. -/
structure Region where
  first : Word
  last : Word
  backing : Backing
  deriving DecidableEq, Repr

/-- The launch parameters of R5 and R400. -/
structure Params where
  /-- `MAX_BREAK_COUNT`. -/
  maxBreakCount : Nat
  /-- `IRQ_VECTOR`. -/
  irqVector : Word
  /-- `JMP_IND_PAGE_WRAP` (OPEN, D10). -/
  jmpIndPageWrap : Bool
  /-- `ZP_PTR_WRAP` (OPEN, D11). -/
  zpPtrWrap : Bool
  /-- `MEM_DEVICE`: the first region that covers an address decides it, and an address no region
  covers is its own cell. The empty list is `FLAT` (R46). -/
  device : List Region
  deriving DecidableEq, Repr

/-- FREE VALUE (log 3): the OPEN parameter `JMP_IND_PAGE_WRAP` of the machine at reset (D10). -/
opaque Config.jmpIndPageWrap : Bool

/-- FREE VALUE (log 3): the OPEN parameter `ZP_PTR_WRAP` of the machine at reset (D11). -/
opaque Config.zpPtrWrap : Bool

/-- FREE VALUE (log 7): the byte a peripheral address answers, after the accesses in `history`
(newest first). R46: "answers `peek` as an oracle the core does not constrain". -/
opaque Config.deviceRead (history : List Access) (addr : Word) : Byte

end Sys2Proof
end

