-- ==== Sys2Proof/Machine/Defaults.lean ====
section
/-! DEFINITION. The parameters of the machine at reset: the defaults of 00_scope.md R5. -/

namespace Sys2Proof.Machine

/-- `FLAT`: every address is its own cell (20_memory.md R46). -/
def flatDevice : List Region := []

/-- R5: `MAX_BREAK_COUNT` 0, `IRQ_VECTOR` 0xFFFE, `MEM_DEVICE` FLAT. The two OPEN parameters are free
values (log 3). -/
def defaultParams : Params :=
  { maxBreakCount := 0
    irqVector := 0xFFFE
    jmpIndPageWrap := Config.jmpIndPageWrap
    zpPtrWrap := Config.zpPtrWrap
    device := flatDevice }

end Sys2Proof.Machine
end

