-- ==== Sys2Proof/Machine/Memory.lean ====
section
/-! DEFINITION. The bytes behind the memory device as a list of cells in one canonical form
(20_memory.md R41, R46): cell numbers strictly rising and below 65536, no entry equal to what an
unlisted cell holds. -/

namespace Sys2Proof.Machine

/-- The memory's contents: the cells that differ from `unlistedByte`. -/
abbrev Memory := List Host.Cell

/-- What an unlisted cell holds (log 2, DESIGN CHOICE: R36 says launch content is launch-supplied). -/
def unlistedByte : Byte := 0x00

/-- The byte in cell `k`. -/
def Memory.read : Memory → Nat → Byte
  | [], _ => unlistedByte
  | c :: m, k => if c.1 = k then c.2 else Memory.read m k

/-- Cell `k` in front of `m`, left out when it holds what an unlisted cell holds. -/
def Memory.put (k : Nat) (v : Byte) (m : Memory) : Memory :=
  if v = unlistedByte then m else (k, v) :: m

/-- The memory after the byte `v` is written to cell `k`. -/
def Memory.write : Memory → Nat → Byte → Memory
  | [], k, v => Memory.put k v []
  | c :: m, k, v =>
    if k < c.1 then Memory.put k v (c :: m)
    else if k = c.1 then Memory.put k v m
    else c :: Memory.write m k v

/-- The canonical form. -/
abbrev Memory.wf (m : Memory) : Prop :=
  m.Pairwise (fun c d => c.1 < d.1) ∧ ∀ c ∈ m, c.2 ≠ unlistedByte ∧ c.1 < 65536

end Sys2Proof.Machine
end

