-- ==== Sys2Proof/Machine/State.lean ====
section
/-! DEFINITION. The state of the machine as plain data, what can stop a step, launch and reset. -/

namespace Sys2Proof.Machine

/-- The seven flags (10_state.md R27). Bit 5 of the status byte is not state (D27). -/
structure Flags where
  n : Bool
  v : Bool
  b : Bool
  d : Bool
  i : Bool
  z : Bool
  c : Bool
  deriving DecidableEq, Repr

/-- The run state (R32): `running`, `halted`, or the terminal `faulted(opcode, op_addr)` of
60_exceptions.md R301. -/
inductive RunState where
  | running
  | halted
  | faulted (opcode : Byte) (opAddr : Word)
  deriving DecidableEq, Repr

/-- Everything the spec gives the machine: the register file (R20 to R27), the engine state (R32, R33),
the memory (20_memory.md R41), the run's access history, newest event first (R40), and the launch
parameters (00_scope.md R5, 70_reset_and_hazards.md R400). -/
structure State where
  a : Byte
  x : Byte
  y : Byte
  sp : Byte
  pc : Word
  flags : Flags
  run : RunState
  breakCount : Nat
  mem : Memory
  history : List Access
  params : Params
  deriving DecidableEq, Repr

/-- Why the machine has no step. Both reasons name a terminal run state (R32, I15: "stuck: no step is
defined"); the run's end itself is a next state. -/
inductive Fault where
  /-- Raised by `step` in the run state `halted` (R32, R70). Safe: the spec gives no step there. -/
  | engineHalted
  /-- Raised by `step` in the run state `faulted(opcode, op_addr)`: the "distinct, identifiable failure"
  of R301, with what it records. Safe: the spec gives no step there. -/
  | unimplementedOpcode (opcode : Byte) (opAddr : Word)
  deriving DecidableEq, Repr

/-- Forms the machine refuses. -/
inductive Refusal where
  /-- An instruction without a meaning; raised by no arm of `exec`. Safe. -/
  | notModelled (mnemonic : String)
  /-- `OpRead` of an operand that has no read (R102, I13). Raised by the reading instructions; no
  instruction of the table meets it. Safe. -/
  | operandNotReadable
  /-- `OpWrite` to an operand that has no write (R103, D24, I13). Raised by the writing instructions; no
  instruction of the table meets it. Safe. -/
  | operandNotWritable
  /-- `OpTarget` of an operand that has no target (R117). Raised by JMP and JSR; no instruction of the
  table meets it. Safe. -/
  | operandHasNoTarget
  deriving DecidableEq, Repr

/-- What one instruction ends in. -/
abbrev Result := Host.Outcome State Fault Refusal

/-- `Launch(regs, mem, params)` of 70_reset_and_hazards.md R400: every register, flag, the memory and the
parameters are the host's; the run state is `running` and the break count 0. -/
def State.launch (a x y sp : Byte) (pc : Word) (flags : Flags) (mem : Memory) (params : Params) : State :=
  { a, x, y, sp, pc, flags, mem, params, run := .running, breakCount := 0, history := [] }

/-- The machine at reset: the launch whose registers, flags and memory are the values of log 1 and log 2
(DESIGN CHOICE: R36 gives none) and whose parameters are R5's defaults. -/
def State.reset : State :=
  State.launch 0 0 0 0 0 ⟨false, false, false, false, false, false, false⟩ [] defaultParams

end Sys2Proof.Machine
end

