-- ==== Sys2Proof/Machine/Device.lean ====
section
/-! DEFINITION. The memory device (20_memory.md R45, R46): which cell an address resolves to, and peek and
poke over it. -/

namespace Sys2Proof.Machine

/-- The region covers the address. -/
def Region.covers (r : Region) (addr : Word) : Bool :=
  decide (r.first ≤ addr) && decide (addr ≤ r.last)

/-- The cell an address of the region resolves to; none for a peripheral. -/
def Region.cell (r : Region) (addr : Word) : Option Word :=
  match r.backing with
  | .mirror base period => some (base + BitVec.ofNat 16 ((addr - r.first).toNat % period))
  | .peripheral => none

/-- `cell(addr)` of R46 for the device: the first region that covers the address decides, and an address
that no region covers is its own cell. -/
def deviceCell : List Region → Word → Option Word
  | [], addr => some addr
  | r :: rs, addr => if Region.covers r addr then Region.cell r addr else deviceCell rs addr

/-- The byte memory holds at an address, as the host finds it (R405, R408): that of the cell the address
resolves to. A peripheral's address has no cell, so memory holds no byte there. -/
def State.memByte (s : State) (addr : Word) : Option Byte :=
  (deviceCell s.params.device addr).map fun cell => Memory.read s.mem cell.toNat

/-- `peek(addr)` (R40): the cell's byte, or a peripheral's answer (log 7). -/
def State.peek (s : State) (addr : Word) : Byte :=
  match deviceCell s.params.device addr with
  | some cell => Memory.read s.mem cell.toNat
  | none => Config.deviceRead s.history addr

/-- The memory after `poke(addr, v)` (R40): the cell the address resolves to holds `v`. A poke of a
peripheral changes no cell; what it does to the device shows in the device's later answers. -/
def memAfterPoke (device : List Region) (mem : Memory) (addr : Word) (v : Byte) : Memory :=
  match deviceCell device addr with
  | some cell => Memory.write mem cell.toNat v
  | none => mem

end Sys2Proof.Machine
end

