-- ==== Sys2Proof/Machine/Bits.lean ====
section
/-! DEFINITION. The bit-field, extension and byte-order helpers of 00_scope.md R6. -/

namespace Sys2Proof

/-- `hi ++ lo` of R6: the `u16` value `hi * 256 + lo`. -/
def hiLo (hi lo : Byte) : Word := hi ++ lo

/-- `w[15:8]`. -/
def hiByte (w : Word) : Byte := w.extractLsb' 8 8

/-- `w[7:0]`. -/
def loByte (w : Word) : Byte := w.extractLsb' 0 8

/-- `zext_16(v)` of R6. -/
def zext16 (v : Byte) : Word := v.setWidth 16

/-- `sext_16(v)` of R6: `v` read as two's complement, modulo 65536. -/
def sext16 (v : Byte) : Word := v.signExtend 16

/-- A flag as the `u8` 0 or 1. -/
def bitByte (f : Bool) : Byte := if f then 1 else 0

end Sys2Proof
end

