-- ==== Sys2Proof/Machine/Flags.lean ====
section
/-! DEFINITION. The flag computations: the status byte (10_state.md R28, R29), SetNZ (R30), the adder's
flags (41_arith_logic.md R130, R131), Compare (44_compare_bit.md R164) and the single-flag writes. -/

namespace Sys2Proof.Machine

/-- `Encode()` (R28): bit 7 N, 6 V, 5 always 1, 4 B, 3 D, 2 I, 1 Z, 0 C. -/
def Flags.encode (f : Flags) : Byte :=
  (bitByte f.n <<< 7) ||| (bitByte f.v <<< 6) ||| 0x20 ||| (bitByte f.b <<< 4) ||| (bitByte f.d <<< 3)
    ||| (bitByte f.i <<< 2) ||| (bitByte f.z <<< 1) ||| bitByte f.c

/-- `Decode(b)` (R29): all seven flags from the byte, bit 5 ignored. -/
def Flags.decode (b : Byte) : Flags :=
  { n := b.getLsbD 7
    v := b.getLsbD 6
    b := b.getLsbD 4
    d := b.getLsbD 3
    i := b.getLsbD 2
    z := b.getLsbD 1
    c := b.getLsbD 0 }

/-- The byte PHP and BRK push: `Encode() | 0x10` (R28, R181, R302). -/
def Flags.pushed (f : Flags) : Byte := f.encode ||| 0x10

/-- `SetNZ(v)` (R30). -/
def Flags.setNZ (f : Flags) (v : Byte) : Flags := { f with n := v.getLsbD 7, z := v == 0 }

/-- `C <- c`. -/
def Flags.setC (f : Flags) (c : Bool) : Flags := { f with c := c }

/-- `V <- v`. -/
def Flags.setV (f : Flags) (v : Bool) : Flags := { f with v := v }

/-- `D <- d`. -/
def Flags.setD (f : Flags) (d : Bool) : Flags := { f with d := d }

/-- `I <- i`. -/
def Flags.setI (f : Flags) (i : Bool) : Flags := { f with i := i }

/-- The sum of R130 in unbounded precision, 0 to 511 (R135). -/
def adderSum (a m : Byte) (c : Bool) : Nat := a.toNat + m.toNat + c.toNat

/-- `trunc_8` of the sum. -/
def adderResult (a m : Byte) (c : Bool) : Byte := BitVec.ofNat 8 (adderSum a m c)

/-- The carry out: the sum exceeds 0xFF (R130). -/
def adderCarry (a m : Byte) (c : Bool) : Bool := decide (adderSum a m c > 0xFF)

/-- The signed overflow (R130): the inputs' signs agree and the result's differs. -/
def adderOverflow (a m : Byte) (c : Bool) : Bool :=
  ((~~~(a ^^^ m)) &&& (a ^^^ adderResult a m c) &&& 0x80) != 0

/-- The flags after the addition `a + m + C` (R130; N is bit 7 of the sum). -/
def Flags.afterAdd (f : Flags) (a m : Byte) : Flags :=
  { f with
    v := adderOverflow a m f.c
    c := adderCarry a m f.c
    z := adderResult a m f.c == 0
    n := (adderSum a m f.c).testBit 7 }

/-- `Compare(reg, m)` (R164): C, N and Z from the unsigned comparison. N is "register < operand", not
bit 7 of the difference (90_conflicts.md C5). -/
def Flags.compare (f : Flags) (reg m : Byte) : Flags :=
  { f with c := decide (m ≤ reg), n := decide (reg < m), z := reg == m }

/-- The flags after BIT (R163): Z from `A & m`, N and V from bits 7 and 6 of `m`. -/
def Flags.bitTest (f : Flags) (a m : Byte) : Flags :=
  { f with z := (a &&& m) == 0, n := m.getLsbD 7, v := m.getLsbD 6 }

end Sys2Proof.Machine
end

