-- ==== Sys2Proof/Machine/Ops.lean ====
section
/-! DEFINITION. The named operations over registers and memory: one update per field, the two memory
primitives (20_memory.md R40), the next instruction byte (40_addressing_modes.md R100), the stack (R50,
R51), the vector read (R52), the BRK entry sequence (60_exceptions.md R302) and the return from it (R306),
the fatal fault (R301), the break counter (30_encoding.md R70), and the host's own accesses (R53, R408). -/

namespace Sys2Proof.Machine

/-! ### One update per field -/

def State.setA (s : State) (v : Byte) : State := { s with a := v }
def State.setX (s : State) (v : Byte) : State := { s with x := v }
def State.setY (s : State) (v : Byte) : State := { s with y := v }
def State.setSp (s : State) (v : Byte) : State := { s with sp := v }
def State.setPc (s : State) (v : Word) : State := { s with pc := v }
def State.setFlags (s : State) (f : Flags) : State := { s with flags := f }
def State.setRun (s : State) (r : RunState) : State := { s with run := r }
def State.setBreakCount (s : State) (n : Nat) : State := { s with breakCount := n }
def State.setMem (s : State) (m : Memory) : State := { s with mem := m }
/-- One more event in the access history (R40). -/
def State.record (s : State) (e : Access) : State := { s with history := e :: s.history }

/-! ### Memory -/

/-- `MemRead(addr, 1)` (R40): the byte, and the state with the event recorded. -/
def State.memRead (s : State) (addr : Word) : Byte × State :=
  (s.peek addr, s.record (.read addr (s.peek addr)))

/-- `MemWrite(addr, 1, v)` (R40). -/
def State.memWrite (s : State) (addr : Word) (v : Byte) : State :=
  (s.setMem (memAfterPoke s.params.device s.mem addr v)).record (.write addr v)

/-- Two byte reads: the low byte at `loAddr`, then the high byte at `hiAddr` (R43). -/
def State.readPair (s : State) (loAddr hiAddr : Word) : Word × State :=
  let lo := s.memRead loAddr
  let hi := lo.2.memRead hiAddr
  (hiLo hi.1 lo.1, hi.2)

/-- `MemRead16(addr)` (R52). -/
def State.memRead16 (s : State) (addr : Word) : Word × State := s.readPair addr (addr + 1)

/-- `NextByte()` (R100): the byte at PC, and PC moved past it modulo 65536 (R25). -/
def State.nextByte (s : State) : Byte × State :=
  let v := s.memRead s.pc
  (v.1, v.2.setPc (s.pc + 1))

/-- The next `n` bytes of the instruction stream, in ascending order (R60). -/
def State.fetchBytes : Nat → State → List Byte × State
  | 0, s => ([], s)
  | n + 1, s =>
    let v := s.nextByte
    let rest := State.fetchBytes n v.2
    (v.1 :: rest.1, rest.2)

/-! ### The stack -/

/-- The stack page (R5: base 0x0100). -/
def stackBase : Word := 0x0100

/-- The effective stack address, "always `0x0100 + SP`" (10_state.md R26). -/
def stackAddr (sp : Byte) : Word := stackBase + zext16 sp

/-- `Push(v)` (R50): write at the stack address, then decrement SP modulo 256. Where R190 read literally has 256
pushes in a row overwrite the first byte pushed, this follows R50: the 257th does (log 20, DEDUCED). -/
def State.push (s : State) (v : Byte) : State := (s.memWrite (stackAddr s.sp) v).setSp (s.sp - 1)

/-- `Pull()` (R51): increment SP modulo 256, then read at the stack address. -/
def State.pull (s : State) : Byte × State := (s.setSp (s.sp + 1)).memRead (stackAddr (s.sp + 1))

/-- A 16-bit value is pushed high byte first (R44, R201, R302). -/
def State.pushWord (s : State) (w : Word) : State := (s.push (hiByte w)).push (loByte w)

/-- A 16-bit value is pulled low byte first (R44, R202, R211). -/
def State.pullWord (s : State) : Word × State :=
  let lo := s.pull
  let hi := lo.2.pull
  (hiLo hi.1 lo.1, hi.2)

/-! ### Taking an exception and returning -/

/-- `InterruptEntry(vector)` (60_exceptions.md R302): read the vector, push PC high, PC low and the
status with bit 4 set, set PC to the target, then set I. -/
def State.interruptEntry (s : State) (vector : Word) : State :=
  let target := s.memRead16 vector
  let saved := (target.2.pushWord s.pc).push s.flags.pushed
  (saved.setPc target.1).setFlags (s.flags.setI true)

/-- The return (R211, R306): pull the status into all seven flags, then PC low and high, no increment. -/
def State.returnFromInterrupt (s : State) : State :=
  let status := s.pull
  let target := (status.2.setFlags (Flags.decode status.1)).pullWord
  target.2.setPc target.1

/-- `raise UnimplementedOpcode(opcode, op_addr)` (R71, R301), after the fetch moved PC past the opcode:
the run state becomes `faulted(opcode, op_addr)`, and nothing else changes. -/
def State.raiseUnimplemented (s : State) (opcode : Byte) : State :=
  s.setRun (.faulted opcode (s.pc - 1))

/-! ### The break counter (30_encoding.md R69, R70) -/

/-- The BRK opcode, the only BRK-equivalent termination (R70). -/
def breakOpcode : Byte := 0x00

/-- A fetch of 0x00 increments the break count; any other opcode leaves it. -/
def State.countBreak (s : State) (opcode : Byte) : State :=
  if opcode = breakOpcode then s.setBreakCount (s.breakCount + 1) else s

/-- The fetch of this opcode makes the break count exceed `MAX_BREAK_COUNT`. -/
def State.breakHalts (s : State) (opcode : Byte) : Bool :=
  opcode == breakOpcode && decide (s.breakCount + 1 > s.params.maxBreakCount)

/-! ### The host's accesses outside a run (70_reset_and_hazards.md R408) -/

/-- `poke(addr, v)` by the host: no event of the run's access history (R40). -/
def State.hostPoke (s : State) (addr : Word) (v : Byte) : State :=
  s.setMem (memAfterPoke s.params.device s.mem addr v)

/-- The host pokes consecutive bytes from `addr` on (program loading, R403). -/
def State.hostPokes (s : State) (addr : Word) : List Byte → State
  | [] => s
  | v :: vs => State.hostPokes (s.hostPoke addr v) (addr + 1) vs

/-- The host stores a handler address at a vector (20_memory.md R53). -/
def State.writeVector (s : State) (vector handler : Word) : State :=
  (s.hostPoke vector (loByte handler)).hostPoke (vector + 1) (hiByte handler)

end Sys2Proof.Machine
end

