-- ==== Sys2Proof/Syntax.lean ====
section
/-! DEFINITION. The instruction set as syntax: the thirteen addressing modes (30_encoding.md R61), the
mnemonics, and one constructor of `Instr` per entry of the instruction table (R63 to R65). -/

namespace Sys2Proof

/-- The thirteen addressing modes, by the abbreviations of 00_scope.md section 5. -/
inductive ModeKind where
  | imp | acc | imm | rel | zp | zpx | zpy | abs | absx | absy | ind | indx | indy
  deriving DecidableEq, Repr

/-- An addressing mode with its operand field (R61). -/
inductive Mode where
  | imp
  | acc
  | imm (imm8 : Byte)
  | rel (rel8 : Byte)
  | zp (zp8 : Byte)
  | zpx (zp8 : Byte)
  | zpy (zp8 : Byte)
  | abs (abs16 : Word)
  | absx (abs16 : Word)
  | absy (abs16 : Word)
  | ind (ptr16 : Word)
  | indx (zp8 : Byte)
  | indy (zp8 : Byte)
  deriving DecidableEq, Repr

/-- The mode without its operand field. -/
def Mode.kind : Mode → ModeKind
  | .imp => .imp
  | .acc => .acc
  | .imm _ => .imm
  | .rel _ => .rel
  | .zp _ => .zp
  | .zpx _ => .zpx
  | .zpy _ => .zpy
  | .abs _ => .abs
  | .absx _ => .absx
  | .absy _ => .absy
  | .ind _ => .ind
  | .indx _ => .indx
  | .indy _ => .indy

/-- The 56 mnemonics of R64, and the sentinel of R65. -/
inductive Mnemonic where
  | adc | sbc | and | ora | eor | asl | lsr | rol | ror | inc
  | dec | inx | iny | dex | dey | cmp | cpx | cpy | bit | bcc
  | bcs | beq | bne | bmi | bpl | bvc | bvs | pha | php | pla
  | plp | tsx | txs | tax | tay | txa | tya | jmp | jsr | rts
  | brk | rti | clc | cld | cli | clv | sec | sed | sei | nop
  | lda | ldx | ldy | sta | stx | sty | unimplemented
  deriving DecidableEq, Repr

/-- The instructions: one constructor per implemented entry of R64 (mnemonic and mode, with the operand
field of R61), and `unimplemented`, the sentinel entry of the 105 bytes of R65, with the byte fetched. -/
inductive Instr where
  | adcImm (imm8 : Byte)
  | adcZp (zp8 : Byte)
  | adcZpx (zp8 : Byte)
  | adcAbs (abs16 : Word)
  | adcAbsx (abs16 : Word)
  | adcAbsy (abs16 : Word)
  | adcIndx (zp8 : Byte)
  | adcIndy (zp8 : Byte)
  | sbcImm (imm8 : Byte)
  | sbcZp (zp8 : Byte)
  | sbcZpx (zp8 : Byte)
  | sbcAbs (abs16 : Word)
  | sbcAbsx (abs16 : Word)
  | sbcAbsy (abs16 : Word)
  | sbcIndx (zp8 : Byte)
  | sbcIndy (zp8 : Byte)
  | andImm (imm8 : Byte)
  | andZp (zp8 : Byte)
  | andZpx (zp8 : Byte)
  | andAbs (abs16 : Word)
  | andAbsx (abs16 : Word)
  | andAbsy (abs16 : Word)
  | andIndx (zp8 : Byte)
  | andIndy (zp8 : Byte)
  | oraImm (imm8 : Byte)
  | oraZp (zp8 : Byte)
  | oraZpx (zp8 : Byte)
  | oraAbs (abs16 : Word)
  | oraAbsx (abs16 : Word)
  | oraAbsy (abs16 : Word)
  | oraIndx (zp8 : Byte)
  | oraIndy (zp8 : Byte)
  | eorImm (imm8 : Byte)
  | eorZp (zp8 : Byte)
  | eorZpx (zp8 : Byte)
  | eorAbs (abs16 : Word)
  | eorAbsx (abs16 : Word)
  | eorAbsy (abs16 : Word)
  | eorIndx (zp8 : Byte)
  | eorIndy (zp8 : Byte)
  | aslAcc
  | aslZp (zp8 : Byte)
  | aslZpx (zp8 : Byte)
  | aslAbs (abs16 : Word)
  | aslAbsx (abs16 : Word)
  | lsrAcc
  | lsrZp (zp8 : Byte)
  | lsrZpx (zp8 : Byte)
  | lsrAbs (abs16 : Word)
  | lsrAbsx (abs16 : Word)
  | rolAcc
  | rolZp (zp8 : Byte)
  | rolZpx (zp8 : Byte)
  | rolAbs (abs16 : Word)
  | rolAbsx (abs16 : Word)
  | rorAcc
  | rorZp (zp8 : Byte)
  | rorZpx (zp8 : Byte)
  | rorAbs (abs16 : Word)
  | rorAbsx (abs16 : Word)
  | incZp (zp8 : Byte)
  | incZpx (zp8 : Byte)
  | incAbs (abs16 : Word)
  | incAbsx (abs16 : Word)
  | decZp (zp8 : Byte)
  | decZpx (zp8 : Byte)
  | decAbs (abs16 : Word)
  | decAbsx (abs16 : Word)
  | inx
  | iny
  | dex
  | dey
  | cmpImm (imm8 : Byte)
  | cmpZp (zp8 : Byte)
  | cmpZpx (zp8 : Byte)
  | cmpAbs (abs16 : Word)
  | cmpAbsx (abs16 : Word)
  | cmpAbsy (abs16 : Word)
  | cmpIndx (zp8 : Byte)
  | cmpIndy (zp8 : Byte)
  | cpxImm (imm8 : Byte)
  | cpxZp (zp8 : Byte)
  | cpxAbs (abs16 : Word)
  | cpyImm (imm8 : Byte)
  | cpyZp (zp8 : Byte)
  | cpyAbs (abs16 : Word)
  | bitZp (zp8 : Byte)
  | bitAbs (abs16 : Word)
  | bcc (rel8 : Byte)
  | bcs (rel8 : Byte)
  | beq (rel8 : Byte)
  | bne (rel8 : Byte)
  | bmi (rel8 : Byte)
  | bpl (rel8 : Byte)
  | bvc (rel8 : Byte)
  | bvs (rel8 : Byte)
  | pha
  | php
  | pla
  | plp
  | tsx
  | txs
  | tax
  | tay
  | txa
  | tya
  | jmpAbs (abs16 : Word)
  | jmpInd (ptr16 : Word)
  | jsr (abs16 : Word)
  | rts
  | brk
  | rti
  | clc
  | cld
  | cli
  | clv
  | sec
  | sed
  | sei
  | nop
  | ldaImm (imm8 : Byte)
  | ldaZp (zp8 : Byte)
  | ldaZpx (zp8 : Byte)
  | ldaAbs (abs16 : Word)
  | ldaAbsx (abs16 : Word)
  | ldaAbsy (abs16 : Word)
  | ldaIndx (zp8 : Byte)
  | ldaIndy (zp8 : Byte)
  | ldxImm (imm8 : Byte)
  | ldxZp (zp8 : Byte)
  | ldxZpy (zp8 : Byte)
  | ldxAbs (abs16 : Word)
  | ldxAbsy (abs16 : Word)
  | ldyImm (imm8 : Byte)
  | ldyZp (zp8 : Byte)
  | ldyZpx (zp8 : Byte)
  | ldyAbs (abs16 : Word)
  | ldyAbsx (abs16 : Word)
  | staZp (zp8 : Byte)
  | staZpx (zp8 : Byte)
  | staAbs (abs16 : Word)
  | staAbsx (abs16 : Word)
  | staAbsy (abs16 : Word)
  | staIndx (zp8 : Byte)
  | staIndy (zp8 : Byte)
  | stxZp (zp8 : Byte)
  | stxZpy (zp8 : Byte)
  | stxAbs (abs16 : Word)
  | styZp (zp8 : Byte)
  | styZpx (zp8 : Byte)
  | styAbs (abs16 : Word)
  | unimplemented (opcode : Byte)
  deriving DecidableEq, Repr

/-- The mnemonic of an instruction (R64). -/
def Instr.mnemonic : Instr → Mnemonic
  | .adcImm _ => .adc
  | .adcZp _ => .adc
  | .adcZpx _ => .adc
  | .adcAbs _ => .adc
  | .adcAbsx _ => .adc
  | .adcAbsy _ => .adc
  | .adcIndx _ => .adc
  | .adcIndy _ => .adc
  | .sbcImm _ => .sbc
  | .sbcZp _ => .sbc
  | .sbcZpx _ => .sbc
  | .sbcAbs _ => .sbc
  | .sbcAbsx _ => .sbc
  | .sbcAbsy _ => .sbc
  | .sbcIndx _ => .sbc
  | .sbcIndy _ => .sbc
  | .andImm _ => .and
  | .andZp _ => .and
  | .andZpx _ => .and
  | .andAbs _ => .and
  | .andAbsx _ => .and
  | .andAbsy _ => .and
  | .andIndx _ => .and
  | .andIndy _ => .and
  | .oraImm _ => .ora
  | .oraZp _ => .ora
  | .oraZpx _ => .ora
  | .oraAbs _ => .ora
  | .oraAbsx _ => .ora
  | .oraAbsy _ => .ora
  | .oraIndx _ => .ora
  | .oraIndy _ => .ora
  | .eorImm _ => .eor
  | .eorZp _ => .eor
  | .eorZpx _ => .eor
  | .eorAbs _ => .eor
  | .eorAbsx _ => .eor
  | .eorAbsy _ => .eor
  | .eorIndx _ => .eor
  | .eorIndy _ => .eor
  | .aslAcc => .asl
  | .aslZp _ => .asl
  | .aslZpx _ => .asl
  | .aslAbs _ => .asl
  | .aslAbsx _ => .asl
  | .lsrAcc => .lsr
  | .lsrZp _ => .lsr
  | .lsrZpx _ => .lsr
  | .lsrAbs _ => .lsr
  | .lsrAbsx _ => .lsr
  | .rolAcc => .rol
  | .rolZp _ => .rol
  | .rolZpx _ => .rol
  | .rolAbs _ => .rol
  | .rolAbsx _ => .rol
  | .rorAcc => .ror
  | .rorZp _ => .ror
  | .rorZpx _ => .ror
  | .rorAbs _ => .ror
  | .rorAbsx _ => .ror
  | .incZp _ => .inc
  | .incZpx _ => .inc
  | .incAbs _ => .inc
  | .incAbsx _ => .inc
  | .decZp _ => .dec
  | .decZpx _ => .dec
  | .decAbs _ => .dec
  | .decAbsx _ => .dec
  | .inx => .inx
  | .iny => .iny
  | .dex => .dex
  | .dey => .dey
  | .cmpImm _ => .cmp
  | .cmpZp _ => .cmp
  | .cmpZpx _ => .cmp
  | .cmpAbs _ => .cmp
  | .cmpAbsx _ => .cmp
  | .cmpAbsy _ => .cmp
  | .cmpIndx _ => .cmp
  | .cmpIndy _ => .cmp
  | .cpxImm _ => .cpx
  | .cpxZp _ => .cpx
  | .cpxAbs _ => .cpx
  | .cpyImm _ => .cpy
  | .cpyZp _ => .cpy
  | .cpyAbs _ => .cpy
  | .bitZp _ => .bit
  | .bitAbs _ => .bit
  | .bcc _ => .bcc
  | .bcs _ => .bcs
  | .beq _ => .beq
  | .bne _ => .bne
  | .bmi _ => .bmi
  | .bpl _ => .bpl
  | .bvc _ => .bvc
  | .bvs _ => .bvs
  | .pha => .pha
  | .php => .php
  | .pla => .pla
  | .plp => .plp
  | .tsx => .tsx
  | .txs => .txs
  | .tax => .tax
  | .tay => .tay
  | .txa => .txa
  | .tya => .tya
  | .jmpAbs _ => .jmp
  | .jmpInd _ => .jmp
  | .jsr _ => .jsr
  | .rts => .rts
  | .brk => .brk
  | .rti => .rti
  | .clc => .clc
  | .cld => .cld
  | .cli => .cli
  | .clv => .clv
  | .sec => .sec
  | .sed => .sed
  | .sei => .sei
  | .nop => .nop
  | .ldaImm _ => .lda
  | .ldaZp _ => .lda
  | .ldaZpx _ => .lda
  | .ldaAbs _ => .lda
  | .ldaAbsx _ => .lda
  | .ldaAbsy _ => .lda
  | .ldaIndx _ => .lda
  | .ldaIndy _ => .lda
  | .ldxImm _ => .ldx
  | .ldxZp _ => .ldx
  | .ldxZpy _ => .ldx
  | .ldxAbs _ => .ldx
  | .ldxAbsy _ => .ldx
  | .ldyImm _ => .ldy
  | .ldyZp _ => .ldy
  | .ldyZpx _ => .ldy
  | .ldyAbs _ => .ldy
  | .ldyAbsx _ => .ldy
  | .staZp _ => .sta
  | .staZpx _ => .sta
  | .staAbs _ => .sta
  | .staAbsx _ => .sta
  | .staAbsy _ => .sta
  | .staIndx _ => .sta
  | .staIndy _ => .sta
  | .stxZp _ => .stx
  | .stxZpy _ => .stx
  | .stxAbs _ => .stx
  | .styZp _ => .sty
  | .styZpx _ => .sty
  | .styAbs _ => .sty
  | .unimplemented _ => .unimplemented

/-- The addressing mode of an instruction with its operand field (R64, R61). -/
def Instr.mode : Instr → Mode
  | .adcImm imm8 => .imm imm8
  | .adcZp zp8 => .zp zp8
  | .adcZpx zp8 => .zpx zp8
  | .adcAbs abs16 => .abs abs16
  | .adcAbsx abs16 => .absx abs16
  | .adcAbsy abs16 => .absy abs16
  | .adcIndx zp8 => .indx zp8
  | .adcIndy zp8 => .indy zp8
  | .sbcImm imm8 => .imm imm8
  | .sbcZp zp8 => .zp zp8
  | .sbcZpx zp8 => .zpx zp8
  | .sbcAbs abs16 => .abs abs16
  | .sbcAbsx abs16 => .absx abs16
  | .sbcAbsy abs16 => .absy abs16
  | .sbcIndx zp8 => .indx zp8
  | .sbcIndy zp8 => .indy zp8
  | .andImm imm8 => .imm imm8
  | .andZp zp8 => .zp zp8
  | .andZpx zp8 => .zpx zp8
  | .andAbs abs16 => .abs abs16
  | .andAbsx abs16 => .absx abs16
  | .andAbsy abs16 => .absy abs16
  | .andIndx zp8 => .indx zp8
  | .andIndy zp8 => .indy zp8
  | .oraImm imm8 => .imm imm8
  | .oraZp zp8 => .zp zp8
  | .oraZpx zp8 => .zpx zp8
  | .oraAbs abs16 => .abs abs16
  | .oraAbsx abs16 => .absx abs16
  | .oraAbsy abs16 => .absy abs16
  | .oraIndx zp8 => .indx zp8
  | .oraIndy zp8 => .indy zp8
  | .eorImm imm8 => .imm imm8
  | .eorZp zp8 => .zp zp8
  | .eorZpx zp8 => .zpx zp8
  | .eorAbs abs16 => .abs abs16
  | .eorAbsx abs16 => .absx abs16
  | .eorAbsy abs16 => .absy abs16
  | .eorIndx zp8 => .indx zp8
  | .eorIndy zp8 => .indy zp8
  | .aslAcc => .acc
  | .aslZp zp8 => .zp zp8
  | .aslZpx zp8 => .zpx zp8
  | .aslAbs abs16 => .abs abs16
  | .aslAbsx abs16 => .absx abs16
  | .lsrAcc => .acc
  | .lsrZp zp8 => .zp zp8
  | .lsrZpx zp8 => .zpx zp8
  | .lsrAbs abs16 => .abs abs16
  | .lsrAbsx abs16 => .absx abs16
  | .rolAcc => .acc
  | .rolZp zp8 => .zp zp8
  | .rolZpx zp8 => .zpx zp8
  | .rolAbs abs16 => .abs abs16
  | .rolAbsx abs16 => .absx abs16
  | .rorAcc => .acc
  | .rorZp zp8 => .zp zp8
  | .rorZpx zp8 => .zpx zp8
  | .rorAbs abs16 => .abs abs16
  | .rorAbsx abs16 => .absx abs16
  | .incZp zp8 => .zp zp8
  | .incZpx zp8 => .zpx zp8
  | .incAbs abs16 => .abs abs16
  | .incAbsx abs16 => .absx abs16
  | .decZp zp8 => .zp zp8
  | .decZpx zp8 => .zpx zp8
  | .decAbs abs16 => .abs abs16
  | .decAbsx abs16 => .absx abs16
  | .inx => .imp
  | .iny => .imp
  | .dex => .imp
  | .dey => .imp
  | .cmpImm imm8 => .imm imm8
  | .cmpZp zp8 => .zp zp8
  | .cmpZpx zp8 => .zpx zp8
  | .cmpAbs abs16 => .abs abs16
  | .cmpAbsx abs16 => .absx abs16
  | .cmpAbsy abs16 => .absy abs16
  | .cmpIndx zp8 => .indx zp8
  | .cmpIndy zp8 => .indy zp8
  | .cpxImm imm8 => .imm imm8
  | .cpxZp zp8 => .zp zp8
  | .cpxAbs abs16 => .abs abs16
  | .cpyImm imm8 => .imm imm8
  | .cpyZp zp8 => .zp zp8
  | .cpyAbs abs16 => .abs abs16
  | .bitZp zp8 => .zp zp8
  | .bitAbs abs16 => .abs abs16
  | .bcc rel8 => .rel rel8
  | .bcs rel8 => .rel rel8
  | .beq rel8 => .rel rel8
  | .bne rel8 => .rel rel8
  | .bmi rel8 => .rel rel8
  | .bpl rel8 => .rel rel8
  | .bvc rel8 => .rel rel8
  | .bvs rel8 => .rel rel8
  | .pha => .imp
  | .php => .imp
  | .pla => .imp
  | .plp => .imp
  | .tsx => .imp
  | .txs => .imp
  | .tax => .imp
  | .tay => .imp
  | .txa => .imp
  | .tya => .imp
  | .jmpAbs abs16 => .abs abs16
  | .jmpInd ptr16 => .ind ptr16
  | .jsr abs16 => .abs abs16
  | .rts => .imp
  | .brk => .imp
  | .rti => .imp
  | .clc => .imp
  | .cld => .imp
  | .cli => .imp
  | .clv => .imp
  | .sec => .imp
  | .sed => .imp
  | .sei => .imp
  | .nop => .imp
  | .ldaImm imm8 => .imm imm8
  | .ldaZp zp8 => .zp zp8
  | .ldaZpx zp8 => .zpx zp8
  | .ldaAbs abs16 => .abs abs16
  | .ldaAbsx abs16 => .absx abs16
  | .ldaAbsy abs16 => .absy abs16
  | .ldaIndx zp8 => .indx zp8
  | .ldaIndy zp8 => .indy zp8
  | .ldxImm imm8 => .imm imm8
  | .ldxZp zp8 => .zp zp8
  | .ldxZpy zp8 => .zpy zp8
  | .ldxAbs abs16 => .abs abs16
  | .ldxAbsy abs16 => .absy abs16
  | .ldyImm imm8 => .imm imm8
  | .ldyZp zp8 => .zp zp8
  | .ldyZpx zp8 => .zpx zp8
  | .ldyAbs abs16 => .abs abs16
  | .ldyAbsx abs16 => .absx abs16
  | .staZp zp8 => .zp zp8
  | .staZpx zp8 => .zpx zp8
  | .staAbs abs16 => .abs abs16
  | .staAbsx abs16 => .absx abs16
  | .staAbsy abs16 => .absy abs16
  | .staIndx zp8 => .indx zp8
  | .staIndy zp8 => .indy zp8
  | .stxZp zp8 => .zp zp8
  | .stxZpy zp8 => .zpy zp8
  | .stxAbs abs16 => .abs abs16
  | .styZp zp8 => .zp zp8
  | .styZpx zp8 => .zpx zp8
  | .styAbs abs16 => .abs abs16
  | .unimplemented _ => .imp

end Sys2Proof
end

