-- ==== Sys2Proof/Machine/Operands.lean ====
section
/-! DEFINITION. The Operand handle and the resolution of the thirteen addressing modes
(40_addressing_modes.md). The operand bytes were consumed by the fetch (R60, R100), so resolution here
performs the pointer reads of a mode and yields the operand. -/

namespace Sys2Proof.Machine

/-- The Operand kinds of R100. -/
inductive Operand where
  | none
  | acc
  | imm (v : Byte)
  | rel (v : Byte)
  | mem (ea : Word)
  | ptr (t : Word)
  deriving DecidableEq, Repr

/-- Where JMP indirect reads the high byte (R114). The two values of the parameter differ only where the
pointer's low byte is 0xFF; `Laws/Operands.lean` proves this equal to the form R114 writes. -/
def indHighAddr (pageWrap : Bool) (p : Word) : Word :=
  if loByte p == 0xFF && pageWrap then (p &&& 0xFF00) ||| zext16 (loByte p + 1) else p + 1

/-- Where the indirect zero-page modes read the pointer's high byte (R115, R116). The two values of the
parameter differ only at 0xFF; `Laws/Operands.lean` proves this equal to the form the rules write. -/
def zpHighAddr (zpWrap : Bool) (p : Byte) : Word :=
  if p == 0xFF && zpWrap then zext16 (p + 1) else zext16 p + 1

/-- The pointer read of the indirect zero-page modes (R115, R116): low byte, then high byte. -/
def State.readZpPointer (s : State) (p : Byte) : Word × State :=
  s.readPair (zext16 p) (zpHighAddr s.params.zpPtrWrap p)

/-- `Resolve(mode)` (R100, R104 to R116), the operand bytes already consumed. -/
def State.resolve (s : State) : Mode → Operand × State
  | .imp => (.none, s)
  | .acc => (.acc, s)
  | .imm v => (.imm v, s)
  | .rel v => (.rel v, s)
  | .zp a => (.mem (zext16 a), s)
  | .zpx a => (.mem (zext16 (a + s.x)), s)
  | .zpy a => (.mem (zext16 (a + s.y)), s)
  | .abs w => (.mem w, s)
  | .absx w => (.mem (w + zext16 s.x), s)
  | .absy w => (.mem (w + zext16 s.y), s)
  | .ind p =>
    let t := s.readPair p (indHighAddr s.params.jmpIndPageWrap p)
    (.ptr t.1, t.2)
  | .indx a =>
    let base := s.readZpPointer (a + s.x)
    (.mem base.1, base.2)
  | .indy a =>
    let base := s.readZpPointer a
    (.mem (base.1 + zext16 s.y), base.2)

/-- `OpRead(o)` (R102); none where R102 leaves it undefined. -/
def State.opRead (s : State) : Operand → Option (Byte × State)
  | .acc => some (s.a, s)
  | .imm v => some (v, s)
  | .rel v => some (v, s)
  | .mem ea => some (s.memRead ea)
  | .none | .ptr _ => none

/-- `OpWrite(o, v)` (R103); none where R103 leaves it undefined. -/
def State.opWrite (s : State) (o : Operand) (v : Byte) : Option State :=
  match o with
  | .acc => some (s.setA v)
  | .mem ea => some (s.memWrite ea v)
  | .none | .imm _ | .rel _ | .ptr _ => none

/-- `OpTarget(o)` (R117); none where R117 leaves it undefined. -/
def opTarget : Operand → Option Word
  | .mem ea => some ea
  | .ptr t => some t
  | .none | .acc | .imm _ | .rel _ => none

/-- Resolve the mode, then `OpRead` its operand: the byte, and the state after the reads. -/
def State.readOperand (s : State) (m : Mode) : Option (Byte × State) :=
  (s.resolve m).2.opRead (s.resolve m).1

/-- The shape of an instruction that reads its operand (R120): `k` says what it does with the byte. -/
def reading (m : Mode) (s : State) (k : Byte → State → State) : Result :=
  match s.readOperand m with
  | some (v, s') => .next (k v s')
  | none => .refused .operandNotReadable

/-- The shape of a store (R120): `OpWrite` only, no read of its location. -/
def storing (m : Mode) (v : Byte) (s : State) : Result :=
  match (s.resolve m).2.opWrite (s.resolve m).1 v with
  | some s' => .next s'
  | none => .refused .operandNotWritable

/-- The shape of a read-modify-write (R120, 20_memory.md R48): one read and one write of the same operand,
resolved once; `f` gives the value written and `g` the flags, both from the value read and the old flags. -/
def modifying (m : Mode) (s : State) (f : Byte → Flags → Byte) (g : Byte → Flags → Flags) : Result :=
  match s.readOperand m with
  | none => .refused .operandNotReadable
  | some (v, s') =>
    match s'.opWrite (s.resolve m).1 (f v s.flags) with
    | none => .refused .operandNotWritable
    | some s'' => .next (s''.setFlags (g v s.flags))

/-- The shape of JMP and JSR (R117, R120): only `OpTarget`; `k` says what is done with the target. -/
def targeting (m : Mode) (s : State) (k : Word → State → State) : Result :=
  match opTarget (s.resolve m).1 with
  | some t => .next (k t (s.resolve m).2)
  | none => .refused .operandHasNoTarget

end Sys2Proof.Machine
end

