-- ==== Sys2Proof/Machine/Transfer.lean ====
section
/-! DEFINITION. A register takes a value and N and Z are set from it (10_state.md R30): the shared
operation of the loads, the transfers, the logic instructions and the register increments. -/

namespace Sys2Proof.Machine

/-- `A <- v; SetNZ(A)`. -/
def State.loadA (s : State) (v : Byte) : State := (s.setA v).setFlags (s.flags.setNZ v)

/-- `X <- v; SetNZ(X)`. -/
def State.loadX (s : State) (v : Byte) : State := (s.setX v).setFlags (s.flags.setNZ v)

/-- `Y <- v; SetNZ(Y)`. -/
def State.loadY (s : State) (v : Byte) : State := (s.setY v).setFlags (s.flags.setNZ v)

end Sys2Proof.Machine
end

