-- ==== Sys2Proof/Machine/ArithLogic.lean ====
section
/-! DEFINITION. 41_arith_logic.md: ADC SBC AND ORA EOR. -/

namespace Sys2Proof.Machine

/-- ADC, R130: A and C take the sum of A, the operand and C; N, V, Z, C written. D is not read (R135). -/
def semAdc (m : Mode) (s : State) : Result :=
  reading m s fun v t => (t.setA (adderResult s.a v s.flags.c)).setFlags (s.flags.afterAdd s.a v)

def execAdcImm (imm8 : Byte) (s : State) : Result := semAdc (.imm imm8) s
def execAdcZp (zp8 : Byte) (s : State) : Result := semAdc (.zp zp8) s
def execAdcZpx (zp8 : Byte) (s : State) : Result := semAdc (.zpx zp8) s
def execAdcAbs (abs16 : Word) (s : State) : Result := semAdc (.abs abs16) s
def execAdcAbsx (abs16 : Word) (s : State) : Result := semAdc (.absx abs16) s
def execAdcAbsy (abs16 : Word) (s : State) : Result := semAdc (.absy abs16) s
def execAdcIndx (zp8 : Byte) (s : State) : Result := semAdc (.indx zp8) s
def execAdcIndy (zp8 : Byte) (s : State) : Result := semAdc (.indy zp8) s

/-- SBC, R131: the addition of the operand's one's complement, with ADC's flag formulas. D is not read (R135). -/
def semSbc (m : Mode) (s : State) : Result :=
  reading m s fun v t =>
    (t.setA (adderResult s.a (v ^^^ 0xFF) s.flags.c)).setFlags (s.flags.afterAdd s.a (v ^^^ 0xFF))

def execSbcImm (imm8 : Byte) (s : State) : Result := semSbc (.imm imm8) s
def execSbcZp (zp8 : Byte) (s : State) : Result := semSbc (.zp zp8) s
def execSbcZpx (zp8 : Byte) (s : State) : Result := semSbc (.zpx zp8) s
def execSbcAbs (abs16 : Word) (s : State) : Result := semSbc (.abs abs16) s
def execSbcAbsx (abs16 : Word) (s : State) : Result := semSbc (.absx abs16) s
def execSbcAbsy (abs16 : Word) (s : State) : Result := semSbc (.absy abs16) s
def execSbcIndx (zp8 : Byte) (s : State) : Result := semSbc (.indx zp8) s
def execSbcIndy (zp8 : Byte) (s : State) : Result := semSbc (.indy zp8) s

/-- AND, R132: A takes `A & m`; N and Z from the new A. -/
def semAnd (m : Mode) (s : State) : Result :=
  reading m s fun v t => t.loadA (s.a &&& v)

def execAndImm (imm8 : Byte) (s : State) : Result := semAnd (.imm imm8) s
def execAndZp (zp8 : Byte) (s : State) : Result := semAnd (.zp zp8) s
def execAndZpx (zp8 : Byte) (s : State) : Result := semAnd (.zpx zp8) s
def execAndAbs (abs16 : Word) (s : State) : Result := semAnd (.abs abs16) s
def execAndAbsx (abs16 : Word) (s : State) : Result := semAnd (.absx abs16) s
def execAndAbsy (abs16 : Word) (s : State) : Result := semAnd (.absy abs16) s
def execAndIndx (zp8 : Byte) (s : State) : Result := semAnd (.indx zp8) s
def execAndIndy (zp8 : Byte) (s : State) : Result := semAnd (.indy zp8) s

/-- ORA, R133: A takes `A | m`; N and Z from the new A. -/
def semOra (m : Mode) (s : State) : Result :=
  reading m s fun v t => t.loadA (s.a ||| v)

def execOraImm (imm8 : Byte) (s : State) : Result := semOra (.imm imm8) s
def execOraZp (zp8 : Byte) (s : State) : Result := semOra (.zp zp8) s
def execOraZpx (zp8 : Byte) (s : State) : Result := semOra (.zpx zp8) s
def execOraAbs (abs16 : Word) (s : State) : Result := semOra (.abs abs16) s
def execOraAbsx (abs16 : Word) (s : State) : Result := semOra (.absx abs16) s
def execOraAbsy (abs16 : Word) (s : State) : Result := semOra (.absy abs16) s
def execOraIndx (zp8 : Byte) (s : State) : Result := semOra (.indx zp8) s
def execOraIndy (zp8 : Byte) (s : State) : Result := semOra (.indy zp8) s

/-- EOR, R134: A takes `A ^ m`; N and Z from the new A. -/
def semEor (m : Mode) (s : State) : Result :=
  reading m s fun v t => t.loadA (s.a ^^^ v)

def execEorImm (imm8 : Byte) (s : State) : Result := semEor (.imm imm8) s
def execEorZp (zp8 : Byte) (s : State) : Result := semEor (.zp zp8) s
def execEorZpx (zp8 : Byte) (s : State) : Result := semEor (.zpx zp8) s
def execEorAbs (abs16 : Word) (s : State) : Result := semEor (.abs abs16) s
def execEorAbsx (abs16 : Word) (s : State) : Result := semEor (.absx abs16) s
def execEorAbsy (abs16 : Word) (s : State) : Result := semEor (.absy abs16) s
def execEorIndx (zp8 : Byte) (s : State) : Result := semEor (.indx zp8) s
def execEorIndy (zp8 : Byte) (s : State) : Result := semEor (.indy zp8) s

end Sys2Proof.Machine
end

