-- ==== Sys2Proof/Machine/Branch.lean ====
section
/-! DEFINITION. 45_branch.md: the eight conditional branches. -/

namespace Sys2Proof.Machine

/-- The branch law R178: PC stands after the branch's operand byte; a taken branch adds the signed
displacement modulo 65536. No flag is written. -/
def branch (cond : Bool) (rel8 : Byte) (s : State) : Result :=
  reading (.rel rel8) s fun v t => if cond then t.setPc (t.pc + sext16 v) else t

/-- BCC, R170: branch if C = 0. -/
def execBcc (rel8 : Byte) (s : State) : Result :=
  branch (!s.flags.c) rel8 s

/-- BCS, R171: branch if C = 1. -/
def execBcs (rel8 : Byte) (s : State) : Result :=
  branch s.flags.c rel8 s

/-- BEQ, R172: branch if Z = 1. -/
def execBeq (rel8 : Byte) (s : State) : Result :=
  branch s.flags.z rel8 s

/-- BNE, R173: branch if Z = 0. -/
def execBne (rel8 : Byte) (s : State) : Result :=
  branch (!s.flags.z) rel8 s

/-- BMI, R174: branch if N = 1. -/
def execBmi (rel8 : Byte) (s : State) : Result :=
  branch s.flags.n rel8 s

/-- BPL, R175: branch if N = 0. -/
def execBpl (rel8 : Byte) (s : State) : Result :=
  branch (!s.flags.n) rel8 s

/-- BVC, R176: branch if V = 0. -/
def execBvc (rel8 : Byte) (s : State) : Result :=
  branch (!s.flags.v) rel8 s

/-- BVS, R177: branch if V = 1. -/
def execBvs (rel8 : Byte) (s : State) : Result :=
  branch s.flags.v rel8 s

end Sys2Proof.Machine
end

