-- ==== Sys2Proof/Machine/CompareBit.lean ====
section
/-! DEFINITION. 44_compare_bit.md: CMP CPX CPY BIT. -/

namespace Sys2Proof.Machine

/-- CMP, R160: Compare A with the operand. -/
def semCmp (m : Mode) (s : State) : Result :=
  reading m s fun v t => t.setFlags (s.flags.compare s.a v)

def execCmpImm (imm8 : Byte) (s : State) : Result := semCmp (.imm imm8) s
def execCmpZp (zp8 : Byte) (s : State) : Result := semCmp (.zp zp8) s
def execCmpZpx (zp8 : Byte) (s : State) : Result := semCmp (.zpx zp8) s
def execCmpAbs (abs16 : Word) (s : State) : Result := semCmp (.abs abs16) s
def execCmpAbsx (abs16 : Word) (s : State) : Result := semCmp (.absx abs16) s
def execCmpAbsy (abs16 : Word) (s : State) : Result := semCmp (.absy abs16) s
def execCmpIndx (zp8 : Byte) (s : State) : Result := semCmp (.indx zp8) s
def execCmpIndy (zp8 : Byte) (s : State) : Result := semCmp (.indy zp8) s

/-- CPX, R161: Compare X with the operand. -/
def semCpx (m : Mode) (s : State) : Result :=
  reading m s fun v t => t.setFlags (s.flags.compare s.x v)

def execCpxImm (imm8 : Byte) (s : State) : Result := semCpx (.imm imm8) s
def execCpxZp (zp8 : Byte) (s : State) : Result := semCpx (.zp zp8) s
def execCpxAbs (abs16 : Word) (s : State) : Result := semCpx (.abs abs16) s

/-- CPY, R162: Compare Y with the operand. -/
def semCpy (m : Mode) (s : State) : Result :=
  reading m s fun v t => t.setFlags (s.flags.compare s.y v)

def execCpyImm (imm8 : Byte) (s : State) : Result := semCpy (.imm imm8) s
def execCpyZp (zp8 : Byte) (s : State) : Result := semCpy (.zp zp8) s
def execCpyAbs (abs16 : Word) (s : State) : Result := semCpy (.abs abs16) s

/-- BIT, R163: Z from `A & m`, N and V from bits 7 and 6 of the operand. -/
def semBit (m : Mode) (s : State) : Result :=
  reading m s fun v t => t.setFlags (s.flags.bitTest s.a v)

def execBitZp (zp8 : Byte) (s : State) : Result := semBit (.zp zp8) s
def execBitAbs (abs16 : Word) (s : State) : Result := semBit (.abs abs16) s

end Sys2Proof.Machine
end

