-- ==== Sys2Proof/Machine/FlagLoadStore.lean ====
section
/-! DEFINITION. 49_flag_nop_load_store.md: the flag instructions, NOP, loads and stores. -/

namespace Sys2Proof.Machine

/-- CLC, R220: `C <- 0`. -/
def execClc (s : State) : Result :=
  .next (s.setFlags (s.flags.setC false))

/-- CLD, R221: `D <- 0`. -/
def execCld (s : State) : Result :=
  .next (s.setFlags (s.flags.setD false))

/-- CLI, R222: `I <- 0`. -/
def execCli (s : State) : Result :=
  .next (s.setFlags (s.flags.setI false))

/-- CLV, R223: `V <- 0`. -/
def execClv (s : State) : Result :=
  .next (s.setFlags (s.flags.setV false))

/-- SEC, R224: `C <- 1`. -/
def execSec (s : State) : Result :=
  .next (s.setFlags (s.flags.setC true))

/-- SED, R225: `D <- 1`. -/
def execSed (s : State) : Result :=
  .next (s.setFlags (s.flags.setD true))

/-- SEI, R226: `I <- 1`. -/
def execSei (s : State) : Result :=
  .next (s.setFlags (s.flags.setI true))

/-- NOP, R227: no state change beyond the fetch. -/
def execNop (s : State) : Result :=
  .next s

/-- LDA, R228: A takes the operand; N and Z from it. -/
def semLda (m : Mode) (s : State) : Result :=
  reading m s fun v t => t.loadA v

def execLdaImm (imm8 : Byte) (s : State) : Result := semLda (.imm imm8) s
def execLdaZp (zp8 : Byte) (s : State) : Result := semLda (.zp zp8) s
def execLdaZpx (zp8 : Byte) (s : State) : Result := semLda (.zpx zp8) s
def execLdaAbs (abs16 : Word) (s : State) : Result := semLda (.abs abs16) s
def execLdaAbsx (abs16 : Word) (s : State) : Result := semLda (.absx abs16) s
def execLdaAbsy (abs16 : Word) (s : State) : Result := semLda (.absy abs16) s
def execLdaIndx (zp8 : Byte) (s : State) : Result := semLda (.indx zp8) s
def execLdaIndy (zp8 : Byte) (s : State) : Result := semLda (.indy zp8) s

/-- LDX, R229: X takes the operand; N and Z from it. -/
def semLdx (m : Mode) (s : State) : Result :=
  reading m s fun v t => t.loadX v

def execLdxImm (imm8 : Byte) (s : State) : Result := semLdx (.imm imm8) s
def execLdxZp (zp8 : Byte) (s : State) : Result := semLdx (.zp zp8) s
def execLdxZpy (zp8 : Byte) (s : State) : Result := semLdx (.zpy zp8) s
def execLdxAbs (abs16 : Word) (s : State) : Result := semLdx (.abs abs16) s
def execLdxAbsy (abs16 : Word) (s : State) : Result := semLdx (.absy abs16) s

/-- LDY, R230: Y takes the operand; N and Z from it. -/
def semLdy (m : Mode) (s : State) : Result :=
  reading m s fun v t => t.loadY v

def execLdyImm (imm8 : Byte) (s : State) : Result := semLdy (.imm imm8) s
def execLdyZp (zp8 : Byte) (s : State) : Result := semLdy (.zp zp8) s
def execLdyZpx (zp8 : Byte) (s : State) : Result := semLdy (.zpx zp8) s
def execLdyAbs (abs16 : Word) (s : State) : Result := semLdy (.abs abs16) s
def execLdyAbsx (abs16 : Word) (s : State) : Result := semLdy (.absx abs16) s

/-- STA, R231: `OpWrite(o, A)`; no flag, no read of the location. -/
def semSta (m : Mode) (s : State) : Result :=
  storing m s.a s

def execStaZp (zp8 : Byte) (s : State) : Result := semSta (.zp zp8) s
def execStaZpx (zp8 : Byte) (s : State) : Result := semSta (.zpx zp8) s
def execStaAbs (abs16 : Word) (s : State) : Result := semSta (.abs abs16) s
def execStaAbsx (abs16 : Word) (s : State) : Result := semSta (.absx abs16) s
def execStaAbsy (abs16 : Word) (s : State) : Result := semSta (.absy abs16) s
def execStaIndx (zp8 : Byte) (s : State) : Result := semSta (.indx zp8) s
def execStaIndy (zp8 : Byte) (s : State) : Result := semSta (.indy zp8) s

/-- STX, R232: `OpWrite(o, X)`; no flag, no read of the location. -/
def semStx (m : Mode) (s : State) : Result :=
  storing m s.x s

def execStxZp (zp8 : Byte) (s : State) : Result := semStx (.zp zp8) s
def execStxZpy (zp8 : Byte) (s : State) : Result := semStx (.zpy zp8) s
def execStxAbs (abs16 : Word) (s : State) : Result := semStx (.abs abs16) s

/-- STY, R233: `OpWrite(o, Y)`; no flag, no read of the location. -/
def semSty (m : Mode) (s : State) : Result :=
  storing m s.y s

def execStyZp (zp8 : Byte) (s : State) : Result := semSty (.zp zp8) s
def execStyZpx (zp8 : Byte) (s : State) : Result := semSty (.zpx zp8) s
def execStyAbs (abs16 : Word) (s : State) : Result := semSty (.abs abs16) s

end Sys2Proof.Machine
end

