-- ==== Sys2Proof/Machine/IncDec.lean ====
section
/-! DEFINITION. 43_incdec.md: INC DEC INX INY DEX DEY. -/

namespace Sys2Proof.Machine

/-- INC, R150: the operand plus 1 modulo 256; N and Z from the result. -/
def semInc (m : Mode) (s : State) : Result :=
  modifying m s (fun v _ => v + 1) fun v f => f.setNZ (v + 1)

def execIncZp (zp8 : Byte) (s : State) : Result := semInc (.zp zp8) s
def execIncZpx (zp8 : Byte) (s : State) : Result := semInc (.zpx zp8) s
def execIncAbs (abs16 : Word) (s : State) : Result := semInc (.abs abs16) s
def execIncAbsx (abs16 : Word) (s : State) : Result := semInc (.absx abs16) s

/-- DEC, R151: the operand minus 1 modulo 256; N and Z from the result. -/
def semDec (m : Mode) (s : State) : Result :=
  modifying m s (fun v _ => v - 1) fun v f => f.setNZ (v - 1)

def execDecZp (zp8 : Byte) (s : State) : Result := semDec (.zp zp8) s
def execDecZpx (zp8 : Byte) (s : State) : Result := semDec (.zpx zp8) s
def execDecAbs (abs16 : Word) (s : State) : Result := semDec (.abs abs16) s
def execDecAbsx (abs16 : Word) (s : State) : Result := semDec (.absx abs16) s

/-- INX, R152. -/
def execInx (s : State) : Result :=
  .next (s.loadX (s.x + 1))

/-- INY, R153. -/
def execIny (s : State) : Result :=
  .next (s.loadY (s.y + 1))

/-- DEX, R154. -/
def execDex (s : State) : Result :=
  .next (s.loadX (s.x - 1))

/-- DEY, R155. -/
def execDey (s : State) : Result :=
  .next (s.loadY (s.y - 1))

end Sys2Proof.Machine
end

