-- ==== Sys2Proof/Machine/Interrupt.lean ====
section
/-! DEFINITION. 48_brk_rti.md and 60_exceptions.md: BRK, RTI and the unimplemented opcode. -/

namespace Sys2Proof.Machine

/-- BRK, R210: the entry sequence through `IRQ_VECTOR`. Reached only when the break counter did not halt (R70). -/
def execBrk (s : State) : Result :=
  .next (s.interruptEntry s.params.irqVector)

/-- RTI, R211: the return from interrupt. -/
def execRti (s : State) : Result :=
  .next s.returnFromInterrupt

/-- UNIMPLEMENTED, R71 and R301: the fatal fault, taken as the spec describes it. -/
def execUnimplemented (opcode : Byte) (s : State) : Result :=
  .next (s.raiseUnimplemented opcode)

end Sys2Proof.Machine
end

