-- ==== Sys2Proof/Machine/Jump.lean ====
section
/-! DEFINITION. 47_jump_subroutine.md: JMP JSR RTS. -/

namespace Sys2Proof.Machine

/-- JMP, R200: PC takes the operand's target; an absolute target is not read (D17). -/
def semJmp (m : Mode) (s : State) : Result :=
  targeting m s fun t s' => s'.setPc t

def execJmpAbs (abs16 : Word) (s : State) : Result := semJmp (.abs abs16) s
def execJmpInd (ptr16 : Word) (s : State) : Result := semJmp (.ind ptr16) s

/-- JSR, R201: push the address of the JSR's last byte, PC - 1, high byte first, then jump. -/
def execJsr (abs16 : Word) (s : State) : Result :=
  targeting (.abs abs16) s fun t s' => (s'.pushWord (s'.pc - 1)).setPc t

/-- RTS, R202: pull the return address, low byte first, and add 1 (90_conflicts.md C3). -/
def execRts (s : State) : Result :=
  .next (s.pullWord.2.setPc (s.pullWord.1 + 1))

end Sys2Proof.Machine
end

