-- ==== Sys2Proof/Machine/Shift.lean ====
section
/-! DEFINITION. 42_shift_rotate.md: ASL LSR ROL ROR. -/

namespace Sys2Proof.Machine

/-- `trunc_8((v << 1) | C)` (R142). -/
def rolResult (v : Byte) (c : Bool) : Byte := (v <<< 1) ||| bitByte c

/-- `(v >> 1) | (C << 7)` (R143). -/
def rorResult (v : Byte) (c : Bool) : Byte := (v >>> 1) ||| (bitByte c <<< 7)

/-- ASL, R140: shift left, bit 0 is 0; C is the bit shifted out; N and Z from the result. -/
def semAsl (m : Mode) (s : State) : Result :=
  modifying m s (fun v _ => v <<< 1) fun v f => (f.setC (v.getLsbD 7)).setNZ (v <<< 1)

def execAslAcc (s : State) : Result := semAsl .acc s
def execAslZp (zp8 : Byte) (s : State) : Result := semAsl (.zp zp8) s
def execAslZpx (zp8 : Byte) (s : State) : Result := semAsl (.zpx zp8) s
def execAslAbs (abs16 : Word) (s : State) : Result := semAsl (.abs abs16) s
def execAslAbsx (abs16 : Word) (s : State) : Result := semAsl (.absx abs16) s

/-- LSR, R141: shift right, bit 7 is 0; C is the bit shifted out; N and Z from the result. -/
def semLsr (m : Mode) (s : State) : Result :=
  modifying m s (fun v _ => v >>> 1) fun v f => (f.setC (v.getLsbD 0)).setNZ (v >>> 1)

def execLsrAcc (s : State) : Result := semLsr .acc s
def execLsrZp (zp8 : Byte) (s : State) : Result := semLsr (.zp zp8) s
def execLsrZpx (zp8 : Byte) (s : State) : Result := semLsr (.zpx zp8) s
def execLsrAbs (abs16 : Word) (s : State) : Result := semLsr (.abs abs16) s
def execLsrAbsx (abs16 : Word) (s : State) : Result := semLsr (.absx abs16) s

/-- ROL, R142: rotate left through C. -/
def semRol (m : Mode) (s : State) : Result :=
  modifying m s (fun v f => rolResult v f.c) fun v f => (f.setC (v.getLsbD 7)).setNZ (rolResult v f.c)

def execRolAcc (s : State) : Result := semRol .acc s
def execRolZp (zp8 : Byte) (s : State) : Result := semRol (.zp zp8) s
def execRolZpx (zp8 : Byte) (s : State) : Result := semRol (.zpx zp8) s
def execRolAbs (abs16 : Word) (s : State) : Result := semRol (.abs abs16) s
def execRolAbsx (abs16 : Word) (s : State) : Result := semRol (.absx abs16) s

/-- ROR, R143: rotate right through C; N takes the incoming C, which is bit 7 of the result. -/
def semRor (m : Mode) (s : State) : Result :=
  modifying m s (fun v f => rorResult v f.c) fun v f =>
    { f with n := f.c, c := v.getLsbD 0, z := rorResult v f.c == 0 }

def execRorAcc (s : State) : Result := semRor .acc s
def execRorZp (zp8 : Byte) (s : State) : Result := semRor (.zp zp8) s
def execRorZpx (zp8 : Byte) (s : State) : Result := semRor (.zpx zp8) s
def execRorAbs (abs16 : Word) (s : State) : Result := semRor (.abs abs16) s
def execRorAbsx (abs16 : Word) (s : State) : Result := semRor (.absx abs16) s

end Sys2Proof.Machine
end

