-- ==== Sys2Proof/Machine/StackTransfer.lean ====
section
/-! DEFINITION. 46_stack_transfer.md: PHA PHP PLA PLP TSX TXS TAX TAY TXA TYA. -/

namespace Sys2Proof.Machine

/-- PHA, R180: `Push(A)`. -/
def execPha (s : State) : Result :=
  .next (s.push s.a)

/-- PHP, R181: `Push(Encode() | 0x10)`; the stored B is not read. -/
def execPhp (s : State) : Result :=
  .next (s.push s.flags.pushed)

/-- PLA, R182: `A <- Pull(); SetNZ(A)`. -/
def execPla (s : State) : Result :=
  .next (s.pull.2.loadA s.pull.1)

/-- PLP, R183: `Decode(Pull())`, all seven flags, B included. -/
def execPlp (s : State) : Result :=
  .next (s.pull.2.setFlags (Flags.decode s.pull.1))

/-- TSX, R184: `X <- SP; SetNZ(X)`. -/
def execTsx (s : State) : Result :=
  .next (s.loadX s.sp)

/-- TXS, R185: `SP <- X`; no flag. -/
def execTxs (s : State) : Result :=
  .next (s.setSp s.x)

/-- TAX, R186: `X <- A; SetNZ(X)`. -/
def execTax (s : State) : Result :=
  .next (s.loadX s.a)

/-- TAY, R187: `Y <- A; SetNZ(Y)`. -/
def execTay (s : State) : Result :=
  .next (s.loadY s.a)

/-- TXA, R188: `A <- X; SetNZ(A)`. -/
def execTxa (s : State) : Result :=
  .next (s.loadA s.x)

/-- TYA, R189: `A <- Y; SetNZ(A)`. -/
def execTya (s : State) : Result :=
  .next (s.loadA s.y)

end Sys2Proof.Machine
end

