-- ==== Sys2Proof/Machine/Dispatch.lean ====
section
/-! DEFINITION. One arm per instruction (30_encoding.md R63: "opcode semantics closed over its addressing mode"). -/

namespace Sys2Proof.Machine

def exec (i : Instr) (s : State) : Host.Outcome State Fault Refusal :=
  match i with
  | .adcImm imm8 => Sys2Proof.Machine.execAdcImm imm8 s
  | .adcZp zp8 => Sys2Proof.Machine.execAdcZp zp8 s
  | .adcZpx zp8 => Sys2Proof.Machine.execAdcZpx zp8 s
  | .adcAbs abs16 => Sys2Proof.Machine.execAdcAbs abs16 s
  | .adcAbsx abs16 => Sys2Proof.Machine.execAdcAbsx abs16 s
  | .adcAbsy abs16 => Sys2Proof.Machine.execAdcAbsy abs16 s
  | .adcIndx zp8 => Sys2Proof.Machine.execAdcIndx zp8 s
  | .adcIndy zp8 => Sys2Proof.Machine.execAdcIndy zp8 s
  | .sbcImm imm8 => Sys2Proof.Machine.execSbcImm imm8 s
  | .sbcZp zp8 => Sys2Proof.Machine.execSbcZp zp8 s
  | .sbcZpx zp8 => Sys2Proof.Machine.execSbcZpx zp8 s
  | .sbcAbs abs16 => Sys2Proof.Machine.execSbcAbs abs16 s
  | .sbcAbsx abs16 => Sys2Proof.Machine.execSbcAbsx abs16 s
  | .sbcAbsy abs16 => Sys2Proof.Machine.execSbcAbsy abs16 s
  | .sbcIndx zp8 => Sys2Proof.Machine.execSbcIndx zp8 s
  | .sbcIndy zp8 => Sys2Proof.Machine.execSbcIndy zp8 s
  | .andImm imm8 => Sys2Proof.Machine.execAndImm imm8 s
  | .andZp zp8 => Sys2Proof.Machine.execAndZp zp8 s
  | .andZpx zp8 => Sys2Proof.Machine.execAndZpx zp8 s
  | .andAbs abs16 => Sys2Proof.Machine.execAndAbs abs16 s
  | .andAbsx abs16 => Sys2Proof.Machine.execAndAbsx abs16 s
  | .andAbsy abs16 => Sys2Proof.Machine.execAndAbsy abs16 s
  | .andIndx zp8 => Sys2Proof.Machine.execAndIndx zp8 s
  | .andIndy zp8 => Sys2Proof.Machine.execAndIndy zp8 s
  | .oraImm imm8 => Sys2Proof.Machine.execOraImm imm8 s
  | .oraZp zp8 => Sys2Proof.Machine.execOraZp zp8 s
  | .oraZpx zp8 => Sys2Proof.Machine.execOraZpx zp8 s
  | .oraAbs abs16 => Sys2Proof.Machine.execOraAbs abs16 s
  | .oraAbsx abs16 => Sys2Proof.Machine.execOraAbsx abs16 s
  | .oraAbsy abs16 => Sys2Proof.Machine.execOraAbsy abs16 s
  | .oraIndx zp8 => Sys2Proof.Machine.execOraIndx zp8 s
  | .oraIndy zp8 => Sys2Proof.Machine.execOraIndy zp8 s
  | .eorImm imm8 => Sys2Proof.Machine.execEorImm imm8 s
  | .eorZp zp8 => Sys2Proof.Machine.execEorZp zp8 s
  | .eorZpx zp8 => Sys2Proof.Machine.execEorZpx zp8 s
  | .eorAbs abs16 => Sys2Proof.Machine.execEorAbs abs16 s
  | .eorAbsx abs16 => Sys2Proof.Machine.execEorAbsx abs16 s
  | .eorAbsy abs16 => Sys2Proof.Machine.execEorAbsy abs16 s
  | .eorIndx zp8 => Sys2Proof.Machine.execEorIndx zp8 s
  | .eorIndy zp8 => Sys2Proof.Machine.execEorIndy zp8 s
  | .aslAcc => Sys2Proof.Machine.execAslAcc s
  | .aslZp zp8 => Sys2Proof.Machine.execAslZp zp8 s
  | .aslZpx zp8 => Sys2Proof.Machine.execAslZpx zp8 s
  | .aslAbs abs16 => Sys2Proof.Machine.execAslAbs abs16 s
  | .aslAbsx abs16 => Sys2Proof.Machine.execAslAbsx abs16 s
  | .lsrAcc => Sys2Proof.Machine.execLsrAcc s
  | .lsrZp zp8 => Sys2Proof.Machine.execLsrZp zp8 s
  | .lsrZpx zp8 => Sys2Proof.Machine.execLsrZpx zp8 s
  | .lsrAbs abs16 => Sys2Proof.Machine.execLsrAbs abs16 s
  | .lsrAbsx abs16 => Sys2Proof.Machine.execLsrAbsx abs16 s
  | .rolAcc => Sys2Proof.Machine.execRolAcc s
  | .rolZp zp8 => Sys2Proof.Machine.execRolZp zp8 s
  | .rolZpx zp8 => Sys2Proof.Machine.execRolZpx zp8 s
  | .rolAbs abs16 => Sys2Proof.Machine.execRolAbs abs16 s
  | .rolAbsx abs16 => Sys2Proof.Machine.execRolAbsx abs16 s
  | .rorAcc => Sys2Proof.Machine.execRorAcc s
  | .rorZp zp8 => Sys2Proof.Machine.execRorZp zp8 s
  | .rorZpx zp8 => Sys2Proof.Machine.execRorZpx zp8 s
  | .rorAbs abs16 => Sys2Proof.Machine.execRorAbs abs16 s
  | .rorAbsx abs16 => Sys2Proof.Machine.execRorAbsx abs16 s
  | .incZp zp8 => Sys2Proof.Machine.execIncZp zp8 s
  | .incZpx zp8 => Sys2Proof.Machine.execIncZpx zp8 s
  | .incAbs abs16 => Sys2Proof.Machine.execIncAbs abs16 s
  | .incAbsx abs16 => Sys2Proof.Machine.execIncAbsx abs16 s
  | .decZp zp8 => Sys2Proof.Machine.execDecZp zp8 s
  | .decZpx zp8 => Sys2Proof.Machine.execDecZpx zp8 s
  | .decAbs abs16 => Sys2Proof.Machine.execDecAbs abs16 s
  | .decAbsx abs16 => Sys2Proof.Machine.execDecAbsx abs16 s
  | .inx => Sys2Proof.Machine.execInx s
  | .iny => Sys2Proof.Machine.execIny s
  | .dex => Sys2Proof.Machine.execDex s
  | .dey => Sys2Proof.Machine.execDey s
  | .cmpImm imm8 => Sys2Proof.Machine.execCmpImm imm8 s
  | .cmpZp zp8 => Sys2Proof.Machine.execCmpZp zp8 s
  | .cmpZpx zp8 => Sys2Proof.Machine.execCmpZpx zp8 s
  | .cmpAbs abs16 => Sys2Proof.Machine.execCmpAbs abs16 s
  | .cmpAbsx abs16 => Sys2Proof.Machine.execCmpAbsx abs16 s
  | .cmpAbsy abs16 => Sys2Proof.Machine.execCmpAbsy abs16 s
  | .cmpIndx zp8 => Sys2Proof.Machine.execCmpIndx zp8 s
  | .cmpIndy zp8 => Sys2Proof.Machine.execCmpIndy zp8 s
  | .cpxImm imm8 => Sys2Proof.Machine.execCpxImm imm8 s
  | .cpxZp zp8 => Sys2Proof.Machine.execCpxZp zp8 s
  | .cpxAbs abs16 => Sys2Proof.Machine.execCpxAbs abs16 s
  | .cpyImm imm8 => Sys2Proof.Machine.execCpyImm imm8 s
  | .cpyZp zp8 => Sys2Proof.Machine.execCpyZp zp8 s
  | .cpyAbs abs16 => Sys2Proof.Machine.execCpyAbs abs16 s
  | .bitZp zp8 => Sys2Proof.Machine.execBitZp zp8 s
  | .bitAbs abs16 => Sys2Proof.Machine.execBitAbs abs16 s
  | .bcc rel8 => Sys2Proof.Machine.execBcc rel8 s
  | .bcs rel8 => Sys2Proof.Machine.execBcs rel8 s
  | .beq rel8 => Sys2Proof.Machine.execBeq rel8 s
  | .bne rel8 => Sys2Proof.Machine.execBne rel8 s
  | .bmi rel8 => Sys2Proof.Machine.execBmi rel8 s
  | .bpl rel8 => Sys2Proof.Machine.execBpl rel8 s
  | .bvc rel8 => Sys2Proof.Machine.execBvc rel8 s
  | .bvs rel8 => Sys2Proof.Machine.execBvs rel8 s
  | .pha => Sys2Proof.Machine.execPha s
  | .php => Sys2Proof.Machine.execPhp s
  | .pla => Sys2Proof.Machine.execPla s
  | .plp => Sys2Proof.Machine.execPlp s
  | .tsx => Sys2Proof.Machine.execTsx s
  | .txs => Sys2Proof.Machine.execTxs s
  | .tax => Sys2Proof.Machine.execTax s
  | .tay => Sys2Proof.Machine.execTay s
  | .txa => Sys2Proof.Machine.execTxa s
  | .tya => Sys2Proof.Machine.execTya s
  | .jmpAbs abs16 => Sys2Proof.Machine.execJmpAbs abs16 s
  | .jmpInd ptr16 => Sys2Proof.Machine.execJmpInd ptr16 s
  | .jsr abs16 => Sys2Proof.Machine.execJsr abs16 s
  | .rts => Sys2Proof.Machine.execRts s
  | .brk => Sys2Proof.Machine.execBrk s
  | .rti => Sys2Proof.Machine.execRti s
  | .clc => Sys2Proof.Machine.execClc s
  | .cld => Sys2Proof.Machine.execCld s
  | .cli => Sys2Proof.Machine.execCli s
  | .clv => Sys2Proof.Machine.execClv s
  | .sec => Sys2Proof.Machine.execSec s
  | .sed => Sys2Proof.Machine.execSed s
  | .sei => Sys2Proof.Machine.execSei s
  | .nop => Sys2Proof.Machine.execNop s
  | .ldaImm imm8 => Sys2Proof.Machine.execLdaImm imm8 s
  | .ldaZp zp8 => Sys2Proof.Machine.execLdaZp zp8 s
  | .ldaZpx zp8 => Sys2Proof.Machine.execLdaZpx zp8 s
  | .ldaAbs abs16 => Sys2Proof.Machine.execLdaAbs abs16 s
  | .ldaAbsx abs16 => Sys2Proof.Machine.execLdaAbsx abs16 s
  | .ldaAbsy abs16 => Sys2Proof.Machine.execLdaAbsy abs16 s
  | .ldaIndx zp8 => Sys2Proof.Machine.execLdaIndx zp8 s
  | .ldaIndy zp8 => Sys2Proof.Machine.execLdaIndy zp8 s
  | .ldxImm imm8 => Sys2Proof.Machine.execLdxImm imm8 s
  | .ldxZp zp8 => Sys2Proof.Machine.execLdxZp zp8 s
  | .ldxZpy zp8 => Sys2Proof.Machine.execLdxZpy zp8 s
  | .ldxAbs abs16 => Sys2Proof.Machine.execLdxAbs abs16 s
  | .ldxAbsy abs16 => Sys2Proof.Machine.execLdxAbsy abs16 s
  | .ldyImm imm8 => Sys2Proof.Machine.execLdyImm imm8 s
  | .ldyZp zp8 => Sys2Proof.Machine.execLdyZp zp8 s
  | .ldyZpx zp8 => Sys2Proof.Machine.execLdyZpx zp8 s
  | .ldyAbs abs16 => Sys2Proof.Machine.execLdyAbs abs16 s
  | .ldyAbsx abs16 => Sys2Proof.Machine.execLdyAbsx abs16 s
  | .staZp zp8 => Sys2Proof.Machine.execStaZp zp8 s
  | .staZpx zp8 => Sys2Proof.Machine.execStaZpx zp8 s
  | .staAbs abs16 => Sys2Proof.Machine.execStaAbs abs16 s
  | .staAbsx abs16 => Sys2Proof.Machine.execStaAbsx abs16 s
  | .staAbsy abs16 => Sys2Proof.Machine.execStaAbsy abs16 s
  | .staIndx zp8 => Sys2Proof.Machine.execStaIndx zp8 s
  | .staIndy zp8 => Sys2Proof.Machine.execStaIndy zp8 s
  | .stxZp zp8 => Sys2Proof.Machine.execStxZp zp8 s
  | .stxZpy zp8 => Sys2Proof.Machine.execStxZpy zp8 s
  | .stxAbs abs16 => Sys2Proof.Machine.execStxAbs abs16 s
  | .styZp zp8 => Sys2Proof.Machine.execStyZp zp8 s
  | .styZpx zp8 => Sys2Proof.Machine.execStyZpx zp8 s
  | .styAbs abs16 => Sys2Proof.Machine.execStyAbs abs16 s
  | .unimplemented opcode => Sys2Proof.Machine.execUnimplemented opcode s

end Sys2Proof.Machine
end

