-- ==== Sys2Proof/Decode.lean ====
section
/-! DEFINITION. The instruction table of 30_encoding.md R63 to R65, the decoder over it, and the encoder.
The table is written from the 16 x 16 grid of R64, the encoder from its list by mnemonic. -/

namespace Sys2Proof

/-- The two bytes of a 16-bit operand field are little-endian (R61, 20_memory.md R43). -/
def operandWord (byte1 byte2 : Byte) : Word := hiLo byte2 byte1

/-- The mode `k` with the operand field assembled from the bytes after the opcode (R61). -/
def ModeKind.withBytes (k : ModeKind) (byte1 byte2 : Byte) : Mode :=
  match k with
  | .imp => .imp
  | .acc => .acc
  | .imm => .imm byte1
  | .rel => .rel byte1
  | .zp => .zp byte1
  | .zpx => .zpx byte1
  | .zpy => .zpy byte1
  | .abs => .abs (operandWord byte1 byte2)
  | .absx => .absx (operandWord byte1 byte2)
  | .absy => .absy (operandWord byte1 byte2)
  | .ind => .ind (operandWord byte1 byte2)
  | .indx => .indx byte1
  | .indy => .indy byte1

/-- The operand bytes a mode consumes: its length in R61 less the opcode. -/
def ModeKind.operandBytes : ModeKind → Nat
  | .imp | .acc => 0
  | .imm | .rel | .zp | .zpx | .zpy | .indx | .indy => 1
  | .abs | .absx | .absy | .ind => 2

/-- The length of an instruction in bytes (R61, R62; a sentinel's is 1). -/
def Instr.length (i : Instr) : Nat := i.mode.kind.operandBytes + 1

/-- One entry of the instruction table (R63), by the operand bytes its mode consumes. -/
inductive Entry where
  /-- IMP or ACC: no operand byte. -/
  | op0 (i : Instr)
  /-- One operand byte. -/
  | op1 (mk : Byte → Instr)
  /-- Two operand bytes, low byte first. -/
  | op2 (mk : Word → Instr)
  /-- The "unimplemented" sentinel. -/
  | unimpl


/-- Row 0x of the grid of R64. -/
def table0 : List Entry :=
  [.op0 .brk, .op1 .oraIndx, .unimpl, .unimpl, .unimpl, .op1 .oraZp, .op1 .aslZp, .unimpl,
   .op0 .php, .op1 .oraImm, .op0 .aslAcc, .unimpl, .unimpl, .op2 .oraAbs, .op2 .aslAbs, .unimpl]

/-- Row 1x of the grid of R64. -/
def table1 : List Entry :=
  [.op1 .bpl, .op1 .oraIndy, .unimpl, .unimpl, .unimpl, .op1 .oraZpx, .op1 .aslZpx, .unimpl,
   .op0 .clc, .op2 .oraAbsy, .unimpl, .unimpl, .unimpl, .op2 .oraAbsx, .op2 .aslAbsx, .unimpl]

/-- Row 2x of the grid of R64. -/
def table2 : List Entry :=
  [.op2 .jsr, .op1 .andIndx, .unimpl, .unimpl, .op1 .bitZp, .op1 .andZp, .op1 .rolZp, .unimpl,
   .op0 .plp, .op1 .andImm, .op0 .rolAcc, .unimpl, .op2 .bitAbs, .op2 .andAbs, .op2 .rolAbs, .unimpl]

/-- Row 3x of the grid of R64. -/
def table3 : List Entry :=
  [.op1 .bmi, .op1 .andIndy, .unimpl, .unimpl, .unimpl, .op1 .andZpx, .op1 .rolZpx, .unimpl,
   .op0 .sec, .op2 .andAbsy, .unimpl, .unimpl, .unimpl, .op2 .andAbsx, .op2 .rolAbsx, .unimpl]

/-- Row 4x of the grid of R64. -/
def table4 : List Entry :=
  [.op0 .rti, .op1 .eorIndx, .unimpl, .unimpl, .unimpl, .op1 .eorZp, .op1 .lsrZp, .unimpl,
   .op0 .pha, .op1 .eorImm, .op0 .lsrAcc, .unimpl, .op2 .jmpAbs, .op2 .eorAbs, .op2 .lsrAbs, .unimpl]

/-- Row 5x of the grid of R64. -/
def table5 : List Entry :=
  [.op1 .bvc, .op1 .eorIndy, .unimpl, .unimpl, .unimpl, .op1 .eorZpx, .op1 .lsrZpx, .unimpl,
   .op0 .cli, .op2 .eorAbsy, .unimpl, .unimpl, .unimpl, .op2 .eorAbsx, .op2 .lsrAbsx, .unimpl]

/-- Row 6x of the grid of R64. -/
def table6 : List Entry :=
  [.op0 .rts, .op1 .adcIndx, .unimpl, .unimpl, .unimpl, .op1 .adcZp, .op1 .rorZp, .unimpl,
   .op0 .pla, .op1 .adcImm, .op0 .rorAcc, .unimpl, .op2 .jmpInd, .op2 .adcAbs, .op2 .rorAbs, .unimpl]

/-- Row 7x of the grid of R64. -/
def table7 : List Entry :=
  [.op1 .bvs, .op1 .adcIndy, .unimpl, .unimpl, .unimpl, .op1 .adcZpx, .op1 .rorZpx, .unimpl,
   .op0 .sei, .op2 .adcAbsy, .unimpl, .unimpl, .unimpl, .op2 .adcAbsx, .op2 .rorAbsx, .unimpl]

/-- Row 8x of the grid of R64. -/
def table8 : List Entry :=
  [.unimpl, .op1 .staIndx, .unimpl, .unimpl, .op1 .styZp, .op1 .staZp, .op1 .stxZp, .unimpl,
   .op0 .dey, .unimpl, .op0 .txa, .unimpl, .op2 .styAbs, .op2 .staAbs, .op2 .stxAbs, .unimpl]

/-- Row 9x of the grid of R64. -/
def table9 : List Entry :=
  [.op1 .bcc, .op1 .staIndy, .unimpl, .unimpl, .op1 .styZpx, .op1 .staZpx, .op1 .stxZpy, .unimpl,
   .op0 .tya, .op2 .staAbsy, .op0 .txs, .unimpl, .unimpl, .op2 .staAbsx, .unimpl, .unimpl]

/-- Row Ax of the grid of R64. -/
def tableA : List Entry :=
  [.op1 .ldyImm, .op1 .ldaIndx, .op1 .ldxImm, .unimpl, .op1 .ldyZp, .op1 .ldaZp, .op1 .ldxZp, .unimpl,
   .op0 .tay, .op1 .ldaImm, .op0 .tax, .unimpl, .op2 .ldyAbs, .op2 .ldaAbs, .op2 .ldxAbs, .unimpl]

/-- Row Bx of the grid of R64. -/
def tableB : List Entry :=
  [.op1 .bcs, .op1 .ldaIndy, .unimpl, .unimpl, .op1 .ldyZpx, .op1 .ldaZpx, .op1 .ldxZpy, .unimpl,
   .op0 .clv, .op2 .ldaAbsy, .op0 .tsx, .unimpl, .op2 .ldyAbsx, .op2 .ldaAbsx, .op2 .ldxAbsy, .unimpl]

/-- Row Cx of the grid of R64. -/
def tableC : List Entry :=
  [.op1 .cpyImm, .op1 .cmpIndx, .unimpl, .unimpl, .op1 .cpyZp, .op1 .cmpZp, .op1 .decZp, .unimpl,
   .op0 .iny, .op1 .cmpImm, .op0 .dex, .unimpl, .op2 .cpyAbs, .op2 .cmpAbs, .op2 .decAbs, .unimpl]

/-- Row Dx of the grid of R64. -/
def tableD : List Entry :=
  [.op1 .bne, .op1 .cmpIndy, .unimpl, .unimpl, .unimpl, .op1 .cmpZpx, .op1 .decZpx, .unimpl,
   .op0 .cld, .op2 .cmpAbsy, .unimpl, .unimpl, .unimpl, .op2 .cmpAbsx, .op2 .decAbsx, .unimpl]

/-- Row Ex of the grid of R64. -/
def tableE : List Entry :=
  [.op1 .cpxImm, .op1 .sbcIndx, .unimpl, .unimpl, .op1 .cpxZp, .op1 .sbcZp, .op1 .incZp, .unimpl,
   .op0 .inx, .op1 .sbcImm, .op0 .nop, .unimpl, .op2 .cpxAbs, .op2 .sbcAbs, .op2 .incAbs, .unimpl]

/-- Row Fx of the grid of R64. -/
def tableF : List Entry :=
  [.op1 .beq, .op1 .sbcIndy, .unimpl, .unimpl, .unimpl, .op1 .sbcZpx, .op1 .incZpx, .unimpl,
   .op0 .sed, .op2 .sbcAbsy, .unimpl, .unimpl, .unimpl, .op2 .sbcAbsx, .op2 .incAbsx, .unimpl]

/-- The 256-entry instruction table (R63, R64, R65). -/
def instructionTable : List Entry :=
  table0 ++ table1 ++ table2 ++ table3 ++ table4 ++ table5 ++ table6 ++ table7
    ++ table8 ++ table9 ++ tableA ++ tableB ++ tableC ++ tableD ++ tableE ++ tableF

/-- The table entry an opcode byte indexes (R63). -/
def tableEntry (opcode : Byte) : Entry := instructionTable.getD opcode.toNat .unimpl

/-- The operand bytes an entry's mode consumes; none for the sentinel (R62, R71). -/
def operandCount (opcode : Byte) : Nat :=
  match tableEntry opcode with
  | .op0 _ | .unimpl => 0
  | .op1 _ => 1
  | .op2 _ => 2

/-- The instruction an opcode byte and the bytes after it stand for. A byte the entry's mode does not
consume is not looked at (R60, R62). -/
def decodeInstr (opcode byte1 byte2 : Byte) : Instr :=
  match tableEntry opcode with
  | .op0 i => i
  | .op1 mk => mk byte1
  | .op2 mk => mk (operandWord byte1 byte2)
  | .unimpl => .unimplemented opcode

/-- Why a list of bytes holds no instruction (log 19, DESIGN CHOICE: no rule speaks of a list cut short). -/
inductive DecodeError where
  /-- The list is empty. -/
  | noOpcode
  /-- The list ends before the operand bytes of this opcode do. -/
  | operandMissing (opcode : Byte)
  deriving DecidableEq, Repr

/-- Decode the first instruction of a list of bytes: the instruction and the bytes after it. Every
opcode byte decodes: to an instruction of R64, or to the sentinel of R65 (R66). -/
def decode : List Byte → Except DecodeError (Instr × List Byte)
  | [] => .error .noOpcode
  | opcode :: rest =>
    if rest.length < operandCount opcode then .error (.operandMissing opcode)
    else .ok (decodeInstr opcode (rest.getD 0 0) (rest.getD 1 0), rest.drop (operandCount opcode))

/-- The bytes of an opcode and a 16-bit operand field, low byte first (R61). -/
def encodeWord (opcode : Byte) (w : Word) : List Byte := [opcode, loByte w, hiByte w]

/-- The bytes of an instruction (R64's list by mnemonic, R61). -/
def encode : Instr → List Byte
  | .adcImm imm8 => [0x69, imm8]
  | .adcZp zp8 => [0x65, zp8]
  | .adcZpx zp8 => [0x75, zp8]
  | .adcAbs abs16 => encodeWord 0x6D abs16
  | .adcAbsx abs16 => encodeWord 0x7D abs16
  | .adcAbsy abs16 => encodeWord 0x79 abs16
  | .adcIndx zp8 => [0x61, zp8]
  | .adcIndy zp8 => [0x71, zp8]
  | .sbcImm imm8 => [0xE9, imm8]
  | .sbcZp zp8 => [0xE5, zp8]
  | .sbcZpx zp8 => [0xF5, zp8]
  | .sbcAbs abs16 => encodeWord 0xED abs16
  | .sbcAbsx abs16 => encodeWord 0xFD abs16
  | .sbcAbsy abs16 => encodeWord 0xF9 abs16
  | .sbcIndx zp8 => [0xE1, zp8]
  | .sbcIndy zp8 => [0xF1, zp8]
  | .andImm imm8 => [0x29, imm8]
  | .andZp zp8 => [0x25, zp8]
  | .andZpx zp8 => [0x35, zp8]
  | .andAbs abs16 => encodeWord 0x2D abs16
  | .andAbsx abs16 => encodeWord 0x3D abs16
  | .andAbsy abs16 => encodeWord 0x39 abs16
  | .andIndx zp8 => [0x21, zp8]
  | .andIndy zp8 => [0x31, zp8]
  | .oraImm imm8 => [0x09, imm8]
  | .oraZp zp8 => [0x05, zp8]
  | .oraZpx zp8 => [0x15, zp8]
  | .oraAbs abs16 => encodeWord 0x0D abs16
  | .oraAbsx abs16 => encodeWord 0x1D abs16
  | .oraAbsy abs16 => encodeWord 0x19 abs16
  | .oraIndx zp8 => [0x01, zp8]
  | .oraIndy zp8 => [0x11, zp8]
  | .eorImm imm8 => [0x49, imm8]
  | .eorZp zp8 => [0x45, zp8]
  | .eorZpx zp8 => [0x55, zp8]
  | .eorAbs abs16 => encodeWord 0x4D abs16
  | .eorAbsx abs16 => encodeWord 0x5D abs16
  | .eorAbsy abs16 => encodeWord 0x59 abs16
  | .eorIndx zp8 => [0x41, zp8]
  | .eorIndy zp8 => [0x51, zp8]
  | .aslAcc => [0x0A]
  | .aslZp zp8 => [0x06, zp8]
  | .aslZpx zp8 => [0x16, zp8]
  | .aslAbs abs16 => encodeWord 0x0E abs16
  | .aslAbsx abs16 => encodeWord 0x1E abs16
  | .lsrAcc => [0x4A]
  | .lsrZp zp8 => [0x46, zp8]
  | .lsrZpx zp8 => [0x56, zp8]
  | .lsrAbs abs16 => encodeWord 0x4E abs16
  | .lsrAbsx abs16 => encodeWord 0x5E abs16
  | .rolAcc => [0x2A]
  | .rolZp zp8 => [0x26, zp8]
  | .rolZpx zp8 => [0x36, zp8]
  | .rolAbs abs16 => encodeWord 0x2E abs16
  | .rolAbsx abs16 => encodeWord 0x3E abs16
  | .rorAcc => [0x6A]
  | .rorZp zp8 => [0x66, zp8]
  | .rorZpx zp8 => [0x76, zp8]
  | .rorAbs abs16 => encodeWord 0x6E abs16
  | .rorAbsx abs16 => encodeWord 0x7E abs16
  | .incZp zp8 => [0xE6, zp8]
  | .incZpx zp8 => [0xF6, zp8]
  | .incAbs abs16 => encodeWord 0xEE abs16
  | .incAbsx abs16 => encodeWord 0xFE abs16
  | .decZp zp8 => [0xC6, zp8]
  | .decZpx zp8 => [0xD6, zp8]
  | .decAbs abs16 => encodeWord 0xCE abs16
  | .decAbsx abs16 => encodeWord 0xDE abs16
  | .inx => [0xE8]
  | .iny => [0xC8]
  | .dex => [0xCA]
  | .dey => [0x88]
  | .cmpImm imm8 => [0xC9, imm8]
  | .cmpZp zp8 => [0xC5, zp8]
  | .cmpZpx zp8 => [0xD5, zp8]
  | .cmpAbs abs16 => encodeWord 0xCD abs16
  | .cmpAbsx abs16 => encodeWord 0xDD abs16
  | .cmpAbsy abs16 => encodeWord 0xD9 abs16
  | .cmpIndx zp8 => [0xC1, zp8]
  | .cmpIndy zp8 => [0xD1, zp8]
  | .cpxImm imm8 => [0xE0, imm8]
  | .cpxZp zp8 => [0xE4, zp8]
  | .cpxAbs abs16 => encodeWord 0xEC abs16
  | .cpyImm imm8 => [0xC0, imm8]
  | .cpyZp zp8 => [0xC4, zp8]
  | .cpyAbs abs16 => encodeWord 0xCC abs16
  | .bitZp zp8 => [0x24, zp8]
  | .bitAbs abs16 => encodeWord 0x2C abs16
  | .bcc rel8 => [0x90, rel8]
  | .bcs rel8 => [0xB0, rel8]
  | .beq rel8 => [0xF0, rel8]
  | .bne rel8 => [0xD0, rel8]
  | .bmi rel8 => [0x30, rel8]
  | .bpl rel8 => [0x10, rel8]
  | .bvc rel8 => [0x50, rel8]
  | .bvs rel8 => [0x70, rel8]
  | .pha => [0x48]
  | .php => [0x08]
  | .pla => [0x68]
  | .plp => [0x28]
  | .tsx => [0xBA]
  | .txs => [0x9A]
  | .tax => [0xAA]
  | .tay => [0xA8]
  | .txa => [0x8A]
  | .tya => [0x98]
  | .jmpAbs abs16 => encodeWord 0x4C abs16
  | .jmpInd ptr16 => encodeWord 0x6C ptr16
  | .jsr abs16 => encodeWord 0x20 abs16
  | .rts => [0x60]
  | .brk => [0x00]
  | .rti => [0x40]
  | .clc => [0x18]
  | .cld => [0xD8]
  | .cli => [0x58]
  | .clv => [0xB8]
  | .sec => [0x38]
  | .sed => [0xF8]
  | .sei => [0x78]
  | .nop => [0xEA]
  | .ldaImm imm8 => [0xA9, imm8]
  | .ldaZp zp8 => [0xA5, zp8]
  | .ldaZpx zp8 => [0xB5, zp8]
  | .ldaAbs abs16 => encodeWord 0xAD abs16
  | .ldaAbsx abs16 => encodeWord 0xBD abs16
  | .ldaAbsy abs16 => encodeWord 0xB9 abs16
  | .ldaIndx zp8 => [0xA1, zp8]
  | .ldaIndy zp8 => [0xB1, zp8]
  | .ldxImm imm8 => [0xA2, imm8]
  | .ldxZp zp8 => [0xA6, zp8]
  | .ldxZpy zp8 => [0xB6, zp8]
  | .ldxAbs abs16 => encodeWord 0xAE abs16
  | .ldxAbsy abs16 => encodeWord 0xBE abs16
  | .ldyImm imm8 => [0xA0, imm8]
  | .ldyZp zp8 => [0xA4, zp8]
  | .ldyZpx zp8 => [0xB4, zp8]
  | .ldyAbs abs16 => encodeWord 0xAC abs16
  | .ldyAbsx abs16 => encodeWord 0xBC abs16
  | .staZp zp8 => [0x85, zp8]
  | .staZpx zp8 => [0x95, zp8]
  | .staAbs abs16 => encodeWord 0x8D abs16
  | .staAbsx abs16 => encodeWord 0x9D abs16
  | .staAbsy abs16 => encodeWord 0x99 abs16
  | .staIndx zp8 => [0x81, zp8]
  | .staIndy zp8 => [0x91, zp8]
  | .stxZp zp8 => [0x86, zp8]
  | .stxZpy zp8 => [0x96, zp8]
  | .stxAbs abs16 => encodeWord 0x8E abs16
  | .styZp zp8 => [0x84, zp8]
  | .styZpx zp8 => [0x94, zp8]
  | .styAbs abs16 => encodeWord 0x8C abs16
  | .unimplemented opcode => [opcode]

/-- The `n` low bytes of `w`, the least significant first. -/
def bytesOf : Nat → Nat → List Byte
  | 0, _ => []
  | n + 1, w => BitVec.ofNat 8 w :: bytesOf n (w / 256)

/-- The bytes of an instruction whose bits are `w`, numbered as spec/opcode_table.json numbers them
(byte0 in bits 7..0, byte1 in bits 15..8), zeros above `nbits` up to the longest instruction. -/
def tableWordBytes (nbits w : Nat) : List Byte := bytesOf 3 (w % 2 ^ nbits)

/-- The instruction the decoder reads from an instruction whose bits are `w`. -/
def decodeTableWord (nbits w : Nat) : Option Instr :=
  match decode (tableWordBytes nbits w) with
  | .ok (i, _) => some i
  | .error _ => none

end Sys2Proof
end

