-- ==== Sys2Proof/Machine/Fetch.lean ====
section
/-! DEFINITION. The fetch half of the step (30_encoding.md R69 to R71): the opcode read, the break check
before PC moves, and the operand bytes (40_addressing_modes.md R100). -/

namespace Sys2Proof.Machine

/-- What the fetch of one step ends in. -/
inductive Fetched where
  /-- A fetch of 0x00 exceeded the threshold: the machine in `halted` (R70). -/
  | halted (s : State)
  /-- An instruction to execute, and the machine with PC past it (R25). -/
  | instr (i : Instr) (s : State)
  deriving DecidableEq, Repr

/-- Fetch one instruction (R69). A halting 0x00 leaves PC at its address; any other opcode moves PC past
itself, and then past each operand byte its mode consumes. A sentinel consumes none (R71). -/
def State.fetch (s : State) : Fetched :=
  let opcode := s.memRead s.pc
  let counted := opcode.2.countBreak opcode.1
  if s.breakHalts opcode.1 then .halted (counted.setRun .halted)
  else
    let operands := (counted.setPc (s.pc + 1)).fetchBytes (operandCount opcode.1)
    .instr (decodeInstr opcode.1 (operands.1.getD 0 0) (operands.1.getD 1 0)) operands.2

/-- The machine set so that the opcode byte is executed by its next step, not halted on: `running`, and for
0x00 a threshold that the next break count does not exceed (R70; log 11). -/
def State.readyFor (s : State) (opcode : Byte) : State :=
  let awake := s.setRun .running
  if s.breakHalts opcode then
    { awake with params := { s.params with maxBreakCount := s.breakCount + 1 } }
  else awake

/-- The bytes stored at PC, where the step fetches, and the machine ready for the first of them. -/
def State.placeAtPc (s : State) (bytes : List Byte) : State :=
  (s.hostPokes s.pc bytes).readyFor (bytes.getD 0 0)

end Sys2Proof.Machine
end

