-- ==== Sys2Proof/Machine/Step.lean ====
section
/-! DEFINITION. One step of the machine (30_encoding.md R69), and a word placed where it fetches. -/

namespace Sys2Proof.Machine

/-- `Step()` of R69. Only `running` has a step (10_state.md R32): in `halted` and `faulted` the answer is
the fault that names the reason (log 8). -/
def step (s : State) : Host.Outcome State Fault Refusal :=
  match s.run with
  | .halted => .fault .engineHalted
  | .faulted opcode opAddr => .fault (.unimplementedOpcode opcode opAddr)
  | .running =>
    match s.fetch with
    | .halted s' => .next s'
    | .instr i s' => exec i s'

/-- `s` with the instruction whose bits are `w` (numbered as spec/opcode_table.json numbers them) stored
where `step` fetches, so that the next step runs it (log 11). -/
def State.withFetchWord (s : State) (nbits w : Nat) : State :=
  s.placeAtPc (tableWordBytes nbits w)

end Sys2Proof.Machine
end

