-- ==== Sys2Proof/Machine/Run.lean ====
section
/-! DEFINITION. The run loop (30_encoding.md R72, 70_reset_and_hazards.md R404, R405), bounded by a number
of steps: a run may never end (R409). -/

namespace Sys2Proof.Machine

/-- The run state has no step: the run ended as `halted` or `faulted` (R32, R405). -/
def State.ended (s : State) : Bool := s.run != .running

/-- Repeat `Step()` while the run state is `running`, at most `n` times (R72). The state left is the one
the host reads at the end of the run (R405). -/
def runLoop : Nat → State → State
  | 0, s => s
  | n + 1, s =>
    match step s with
    | .next s' => runLoop n s'
    | .fault _ => s
    | .refused _ => s

end Sys2Proof.Machine
end

