-- ==== Sys2Proof/Safety.lean ====
section
/-! DEFINITION. What counts as a safe run, and the notions the statements are made in: the invariant of the
machine, the history a memory results from, and two states that differ only in the stored B flag. -/

namespace Sys2Proof.Machine

/-- A run of `n` steps is safe: it meets no unimplemented opcode (60_exceptions.md R301), the only failure of
the machine (R300). Halting is an end, not a failure (R405). -/
def State.safeFor (s : State) (n : Nat) : Prop :=
  ∀ k ≤ n, ∀ opcode opAddr, (runLoop k s).run ≠ .faulted opcode opAddr

/-- The break count that belongs to each run state (30_encoding.md R70), and what `faulted` records (R301). -/
def State.runConsistent (s : State) : Prop :=
  match s.run with
  | .running => s.breakCount ≤ s.params.maxBreakCount
  | .halted => s.breakCount = s.params.maxBreakCount + 1
  | .faulted opcode opAddr =>
    s.breakCount ≤ s.params.maxBreakCount ∧ isSentinel opcode = true ∧ s.pc = opAddr + 1

/-- The invariant of the machine: the memory is in canonical form, and the run state agrees with the break
count and the PC. -/
def State.Inv (s : State) : Prop := Memory.wf s.mem ∧ s.runConsistent

/-- The memory that the writes of a history leave, from the memory `m` before it (20_memory.md R46). -/
def replay (device : List Region) (m : Memory) : List Access → Memory
  | [] => m
  | .read _ _ :: earlier => replay device m earlier
  | .write addr v :: earlier => memAfterPoke device (replay device m earlier) addr v

/-- Every read of the history `h` (newest first, after the accesses `before`) returned the byte its cell held
at that moment: the most recent write to the cell, or what `m` held (20_memory.md R46, R55). A peripheral
answered as the oracle it is. -/
def readsAgree (device : List Region) (m : Memory) (before : List Access) : List Access → Prop
  | [] => True
  | .write _ _ :: earlier => readsAgree device m before earlier
  | .read addr v :: earlier =>
    readsAgree device m before earlier ∧
      match deviceCell device addr with
      | some cell => v = Memory.read (replay device m earlier) cell.toNat
      | none => v = Config.deviceRead (earlier ++ before) addr

/-- The two states differ at most in the stored B flag. -/
def sameButB (s t : State) : Prop := t = { s with flags := { s.flags with b := t.flags.b } }

/-- The two outcomes are of one kind and differ at most in the stored B flag. -/
def outcomesSameButB : Result → Result → Prop
  | .next s, .next t => sameButB s t
  | .fault f, .fault g => f = g
  | .refused p, .refused q => p = q
  | _, _ => False

end Sys2Proof.Machine
end

