-- ==== Sys2Proof/Certificates/Slice0/Obligations.lean ====
section
/-! DEFINITION. The statements for the provers, one `Obligations.<Name>` each, from the numbered rules of
spec/. Instruction results are stated for every opcode byte of the instruction, every value of its operand
bytes and every state after the fetch; `k.withBytes b1 b2` is the mode with the operand field assembled. -/

open Sys2Proof Sys2Proof.Machine

/-! ### Launch and reset -/

/-- R400: the launch sets every register, flag, the memory and the parameters to the host's values, and
starts `running` with break count 0. The machine at reset is such a launch with R5's defaults (log 5):
`MAX_BREAK_COUNT` 0, `IRQ_VECTOR` 0xFFFE, FLAT device, each address its own cell. (Its registers, flags and
memory are the model's choice, log 1 and log 2, and are not stated.) -/
def Obligations.LaunchTakesEveryValueFromTheHost : Prop :=
  (∀ (a x y sp : Byte) (pc : Word) (f : Flags) (m : Memory) (p : Params),
    let s := State.launch a x y sp pc f m p
    s.a = a ∧ s.x = x ∧ s.y = y ∧ s.sp = sp ∧ s.pc = pc ∧ s.flags = f ∧ s.mem = m ∧ s.params = p ∧
      s.run = .running ∧ s.breakCount = 0) ∧
  (∃ a x y sp pc f m, State.reset = State.launch a x y sp pc f m State.reset.params) ∧
  State.reset.params.maxBreakCount = 0 ∧ State.reset.params.irqVector = 0xFFFE ∧
  ∀ addr, deviceCell State.reset.params.device addr = some addr

/-! ### The status byte -/

/-- R28: the layout of the encoded status byte, bit 5 always 1; what PHP and BRK push is `Encode() | 0x10`. -/
def Obligations.EncodeHasTheFixedLayout : Prop :=
  ∀ f : Flags,
    f.encode.getLsbD 0 = f.c ∧ f.encode.getLsbD 1 = f.z ∧ f.encode.getLsbD 2 = f.i ∧
    f.encode.getLsbD 3 = f.d ∧ f.encode.getLsbD 4 = f.b ∧ f.encode.getLsbD 5 = true ∧
    f.encode.getLsbD 6 = f.v ∧ f.encode.getLsbD 7 = f.n ∧ f.pushed = f.encode ||| 0x10

/-- R29, R31: decoding writes all seven flags from the byte's bits and ignores bit 5, and encoding and
decoding are inverses but for bit 5. -/
def Obligations.DecodeLoadsAllSevenFlags : Prop :=
  (∀ b : Byte,
    Flags.decode b = { c := b.getLsbD 0, z := b.getLsbD 1, i := b.getLsbD 2, d := b.getLsbD 3,
                       b := b.getLsbD 4, v := b.getLsbD 6, n := b.getLsbD 7 } ∧
    Flags.decode (b ^^^ 0x20) = Flags.decode b ∧ (Flags.decode b).encode = b ||| 0x20) ∧
  ∀ f : Flags, Flags.decode f.encode = f

/-! ### Memory and the device -/

/-- R40: each byte access is one event of the access history; a read changes nothing else, and a write pokes
the device and changes nothing else. -/
def Obligations.EveryAccessIsOneEvent : Prop :=
  ∀ (s : State) (addr : Word) (v : Byte),
    s.memRead addr = (s.peek addr, { s with history := .read addr (s.peek addr) :: s.history }) ∧
    s.memWrite addr v = { s with
      mem := memAfterPoke s.params.device s.mem addr v, history := .write addr v :: s.history }

/-- R45, R46, any device: a byte written at an address is read at exactly the addresses of the same cell, and
memory holds what it held at every address of another cell. The last clause, that a write to a peripheral changes
no cell, is the model's choice (log 7, DESIGN CHOICE): R46 only says that the core does not constrain such a
device. -/
def Obligations.AddressesOfOneCellShareItsByte : Prop :=
  ∀ (s : State) (addr other : Word) (v : Byte), Memory.wf s.mem →
    (∀ cell, deviceCell s.params.device addr = some cell → deviceCell s.params.device other = some cell →
      (s.memWrite addr v).peek other = v ∧ (s.memWrite addr v).memByte other = some v) ∧
    (deviceCell s.params.device other ≠ deviceCell s.params.device addr →
      (s.memWrite addr v).memByte other = s.memByte other) ∧
    (deviceCell s.params.device addr = none → (s.memWrite addr v).mem = s.mem)

/-- R52, R53: a 16-bit read is two byte reads, the low byte at the address, then the high byte at the next
address modulo 65536; after the host stores a handler at a vector, the core's vector read gives the handler
(FLAT device). -/
def Obligations.VectorsAreLittleEndian : Prop :=
  (∀ (s : State) (addr : Word),
    s.memRead16 addr =
      (((s.memRead addr).2.memRead (addr + 1)).1 ++ (s.memRead addr).1,
        ((s.memRead addr).2.memRead (addr + 1)).2)) ∧
  ∀ (s : State) (vector handler : Word), s.params.device = [] → Memory.wf s.mem →
    ((s.writeVector vector handler).memRead16 vector).1 = handler

/-- R50, R51: a push writes at 0x0100 + SP and then decrements SP modulo 256; a pull increments SP modulo 256
and then reads at 0x0100 + SP; both addresses lie in the stack page. -/
def Obligations.PushAndPullFollowTheStackRules : Prop :=
  ∀ (s : State) (v : Byte),
    s.push v = { s.memWrite (0x0100 + s.sp.setWidth 16) v with sp := s.sp - 1 } ∧
    s.pull = { s with sp := s.sp + 1 }.memRead (0x0100 + (s.sp + 1).setWidth 16) ∧
    (s.push v).sp = (if s.sp = 0x00 then 0xFF else s.sp - 1) ∧
    s.pull.2.sp = (if s.sp = 0xFF then 0x00 else s.sp + 1) ∧
    0x0100 ≤ (0x0100 + s.sp.setWidth 16 : Word).toNat ∧ (0x0100 + s.sp.setWidth 16 : Word).toNat ≤ 0x01FF

/-- From R190 and R183: a push and then a pull give the pushed byte back and restore SP (memory behind the stack
slot); 256 pushes in a row bring SP back to its starting value; PHP and then PLP leave A, SP and every flag as
they were except B, which becomes 1. R190's clause that those 256 pushes overwrite the first byte pushed is not
stated: by R50 they fill 256 slots and the 257th overwrites it, the model's reading (log 20, DEDUCED). -/
def Obligations.PullReturnsWhatWasPushed : Prop :=
  (∀ (s : State) (v : Byte), Memory.wf s.mem →
    deviceCell s.params.device (0x0100 + s.sp.setWidth 16) ≠ none →
      (s.push v).pull.1 = v ∧ (s.push v).pull.2.sp = s.sp) ∧
  (∀ (s : State) (vs : List Byte), vs.length = 256 → (vs.foldl State.push s).sp = s.sp) ∧
  ∀ s : State, Memory.wf s.mem → deviceCell s.params.device (0x0100 + s.sp.setWidth 16) ≠ none →
    ∃ s1 s2, exec .php s = .next s1 ∧ exec .plp s1 = .next s2 ∧
      s2.flags = { s.flags with b := true } ∧ s2.sp = s.sp ∧ s2.a = s.a

/-! ### Encoding -/

/-- Nine byte sequences the spec writes out decode to the instructions it says they are (95_test_vectors.md). The
last clause is no sequence of the spec: that a list cut short is a decode error is the model's choice (log 19,
DESIGN CHOICE). -/
def Obligations.WordsOfTheSpecDecode : Prop :=
  decode [0xA9, 0x42] = .ok (.ldaImm 0x42, []) ∧
  decode [0x8D, 0x00, 0x02] = .ok (.staAbs 0x0200, []) ∧
  decode [0x00] = .ok (.brk, []) ∧
  decode [0x6C, 0xFF, 0x02, 0xEA] = .ok (.jmpInd 0x02FF, [0xEA]) ∧
  decode [0xD0, 0xFA] = .ok (.bne 0xFA, []) ∧
  decode [0xB6, 0xF0] = .ok (.ldxZpy 0xF0, []) ∧
  decode [0x0A] = .ok (.aslAcc, []) ∧
  decode [0x91, 0x40] = .ok (.staIndy 0x40, []) ∧
  decode [0x02, 0xEA] = .ok (.unimplemented 0x02, [0xEA]) ∧
  decode [0x20, 0x00] = .error (.operandMissing 0x20)

/-- Decoding the bytes of a well-formed instruction gives it back, whatever bytes follow. -/
def Obligations.DecodeOfEncodeIsTheInstruction : Prop :=
  ∀ (i : Instr) (rest : List Byte), WellFormed i = true → decode (encode i ++ rest) = .ok (i, rest)

/-- Bytes that decode are the bytes of the well-formed instruction they decode to: each word has one
meaning. -/
def Obligations.EncodeOfDecodeIsTheBytes : Prop :=
  ∀ (bytes rest : List Byte) (i : Instr), decode bytes = .ok (i, rest) →
    WellFormed i = true ∧ bytes = encode i ++ rest

/-- R65, R66: 105 distinct opcode bytes are the sentinel's and consume no operand byte; every other opcode
byte decodes to an instruction that is not the sentinel. -/
def Obligations.OpcodeByteIsAnInstructionOrTheSentinel : Prop :=
  sentinelOpcodes.length = 105 ∧ sentinelOpcodes.Nodup ∧
  ∀ op b1 b2 : Byte,
    (isSentinel op = true → decodeInstr op b1 b2 = .unimplemented op ∧ operandCount op = 0) ∧
    (isSentinel op = false → (decodeInstr op b1 b2).mnemonic ≠ .unimplemented)

/-! ### The step -/

/-- R100, R60: fetching `n` bytes reads them at ascending addresses from PC on, wrapping modulo 65536, moves
PC past each, and changes nothing else but the history (memory behind the addresses). -/
def Obligations.FetchReadsAscendingBytes : Prop :=
  ∀ (n : Nat) (s : State), (∀ j < n, deviceCell s.params.device (s.pc + BitVec.ofNat 16 j) ≠ none) →
    (s.fetchBytes n).1 = (List.range n).map (fun j => s.peek (s.pc + BitVec.ofNat 16 j)) ∧
    (s.fetchBytes n).2 =
      { s with
        pc := s.pc + BitVec.ofNat 16 n
        history := ((List.range n).map fun j =>
          Access.read (s.pc + BitVec.ofNat 16 j) (s.peek (s.pc + BitVec.ofNat 16 j))).reverse ++ s.history }

/-- R69: in `running`, when the bytes fetched at PC decode to an instruction other than BRK, the step is that
instruction's meaning at the state with PC past those bytes and their reads recorded. That all operand bytes are
read before the mode is resolved is the model's division of the step (log 10, DEDUCED). -/
def Obligations.StepRunsTheDecodedInstruction : Prop :=
  ∀ (s : State) (n : Nat) (i : Instr), s.run = .running → decode (s.fetchBytes n).1 = .ok (i, []) →
    i ≠ .brk → step s = exec i (s.fetchBytes n).2

/-- R70: a fetch of 0x00 increments the break count; if the count then exceeds `MAX_BREAK_COUNT` the engine
halts with PC at that 0x00 and the opcode read its only access, and otherwise the BRK executes. No other fetch
counts. -/
def Obligations.BreakCounterHaltsOrRunsBrk : Prop :=
  ∀ s : State, s.run = .running →
    (s.peek s.pc = 0x00 → s.breakCount + 1 > s.params.maxBreakCount →
      step s = .next { s with run := .halted, breakCount := s.breakCount + 1,
                              history := .read s.pc 0x00 :: s.history }) ∧
    (s.peek s.pc = 0x00 → s.breakCount + 1 ≤ s.params.maxBreakCount →
      step s = exec .brk { s with breakCount := s.breakCount + 1, pc := s.pc + 1,
                                  history := .read s.pc 0x00 :: s.history }) ∧
    (s.peek s.pc ≠ 0x00 → ∃ t, step s = .next t ∧ t.breakCount = s.breakCount ∧ t.run ≠ .halted)

/-- R71, R301: a fetched sentinel byte makes the run state `faulted(opcode, op_addr)` with PC past the opcode;
only the opcode read took place and everything else is as before the step. The meaning of `unimplemented`
itself is that entry. -/
def Obligations.SentinelOpcodeFaultsTheEngine : Prop :=
  ∀ (s : State) (op : Byte), isSentinel op = true →
    (s.run = .running → s.peek s.pc = op →
      step s = .next { s with run := .faulted op s.pc, pc := s.pc + 1,
                              history := .read s.pc op :: s.history }) ∧
    ∀ b1 b2 : Byte, exec (decodeInstr op b1 b2) s = .next { s with run := .faulted op (s.pc - 1) }

/-- From R32 and R315: `halted` and `faulted` have no step, and the run loop leaves an ended run as it is, for the
host to read. That the step of an ended machine answers a fault that names the reason is the model's choice (log 8,
DEDUCED): R32 and I15 only say that no step is defined. -/
def Obligations.StoppedEngineHasNoStep : Prop :=
  ∀ s : State,
    (s.run = .halted → step s = .fault .engineHalted) ∧
    (∀ opcode opAddr, s.run = .faulted opcode opAddr → step s = .fault (.unimplementedOpcode opcode opAddr)) ∧
    (s.run ≠ .running → ∀ n, runLoop n s = s)

/-- R300: in `running` every step completes: whatever the registers, the memory and the parameters hold, the
step answers a next state, never a fault or a refusal. -/
def Obligations.EveryRunningStepCompletes : Prop :=
  ∀ s : State, s.run = .running → ∃ t, step s = .next t

/-! ### Addressing modes -/

/-- From R104 to R113: how many operand bytes the modes without a pointer consume and what they resolve to. In the
rules `Resolve` reads those bytes at PC; in the model the fetch has read them and moved PC (log 10, DEDUCED), so
that resolution performs no access beyond them and leaves the state as it is. -/
def Obligations.DirectModesResolveWithoutAccess : Prop :=
  ∀ (s : State) (b1 b2 : Byte),
    (ModeKind.imp.operandBytes = 0 ∧ s.resolve (ModeKind.imp.withBytes b1 b2) = (.none, s)) ∧
    (ModeKind.acc.operandBytes = 0 ∧ s.resolve (ModeKind.acc.withBytes b1 b2) = (.acc, s)) ∧
    (ModeKind.imm.operandBytes = 1 ∧ s.resolve (ModeKind.imm.withBytes b1 b2) = (.imm b1, s)) ∧
    (ModeKind.rel.operandBytes = 1 ∧ s.resolve (ModeKind.rel.withBytes b1 b2) = (.rel b1, s)) ∧
    (ModeKind.zp.operandBytes = 1 ∧ s.resolve (ModeKind.zp.withBytes b1 b2) = (.mem (b1.setWidth 16), s)) ∧
    (ModeKind.zpx.operandBytes = 1 ∧
      s.resolve (ModeKind.zpx.withBytes b1 b2) = (.mem ((b1 + s.x).setWidth 16), s)) ∧
    (ModeKind.zpy.operandBytes = 1 ∧
      s.resolve (ModeKind.zpy.withBytes b1 b2) = (.mem ((b1 + s.y).setWidth 16), s)) ∧
    (ModeKind.abs.operandBytes = 2 ∧ s.resolve (ModeKind.abs.withBytes b1 b2) = (.mem (b2 ++ b1), s)) ∧
    (ModeKind.absx.operandBytes = 2 ∧
      s.resolve (ModeKind.absx.withBytes b1 b2) = (.mem ((b2 ++ b1 : Word) + s.x.setWidth 16), s)) ∧
    (ModeKind.absy.operandBytes = 2 ∧
      s.resolve (ModeKind.absy.withBytes b1 b2) = (.mem ((b2 ++ b1 : Word) + s.y.setWidth 16), s))

/-- From R114, R115 and R116: the pointer modes read the low byte at the pointer and the high byte where
`JMP_IND_PAGE_WRAP` and `ZP_PTR_WRAP` say, as the rules write it; INDX indexes the pointer, INDY the address
read. The operand bytes were read by the fetch (log 10, DEDUCED), so that these two reads are resolution's only
accesses. -/
def Obligations.PointerModesReadTheirPointer : Prop :=
  ∀ (s : State) (b1 b2 : Byte),
    let ptr : Word := b2 ++ b1
    let indHi : Word :=
      if s.params.jmpIndPageWrap = true then (ptr &&& 0xFF00) ||| (b1 + 1).setWidth 16 else ptr + 1
    let zpHi : Byte → Word := fun p =>
      if s.params.zpPtrWrap = true then (p + 1).setWidth 16 else p.setWidth 16 + 1
    let lo : Word → Byte × State := fun p => s.memRead p
    let hi : Word → Word → Byte × State := fun p h => (lo p).2.memRead h
    let zlo : Byte → Byte := fun p => (lo (p.setWidth 16)).1
    let zhi : Byte → Byte × State := fun p => hi (p.setWidth 16) (zpHi p)
    (ModeKind.ind.operandBytes = 2 ∧ s.resolve (ModeKind.ind.withBytes b1 b2) =
      (.ptr ((hi ptr indHi).1 ++ (lo ptr).1), (hi ptr indHi).2)) ∧
    (ModeKind.indx.operandBytes = 1 ∧ s.resolve (ModeKind.indx.withBytes b1 b2) =
      (.mem ((zhi (b1 + s.x)).1 ++ zlo (b1 + s.x)), (zhi (b1 + s.x)).2)) ∧
    (ModeKind.indy.operandBytes = 1 ∧ s.resolve (ModeKind.indy.withBytes b1 b2) =
      (.mem (((zhi b1).1 ++ zlo b1 : Word) + s.y.setWidth 16), (zhi b1).2))

/-- R119: the zero-page modes never leave the zero page; with `ZP_PTR_WRAP` true the zero-page indirect modes
read no pointer byte outside it. -/
def Obligations.ZeroPageModesStayInTheZeroPage : Prop :=
  ∀ (s : State) (a : Byte),
    (∀ m ∈ [Mode.zp a, Mode.zpx a, Mode.zpy a], ∀ ea, (s.resolve m).1 = .mem ea → ea.toNat ≤ 0xFF) ∧
    (s.resolve (.zpx a)).1 = .mem (BitVec.ofNat 16 ((a.toNat + s.x.toNat) % 256)) ∧
    (s.resolve (.zpy a)).1 = .mem (BitVec.ofNat 16 ((a.toNat + s.y.toNat) % 256)) ∧
    (s.params.zpPtrWrap = true → ∀ m ∈ [Mode.indx a, Mode.indy a], ∃ p q u w,
      (s.resolve m).2.history = .read q w :: .read p u :: s.history ∧ p.toNat ≤ 0xFF ∧ q.toNat ≤ 0xFF)

/-- R102, R103, R117: what OpRead, OpWrite and OpTarget do for each operand kind, and where they are not
defined. -/
def Obligations.OperandKindsReadWriteAndTarget : Prop :=
  ∀ (s : State) (v w : Byte) (ea : Word),
    s.opRead .acc = some (s.a, s) ∧ s.opRead (.imm v) = some (v, s) ∧ s.opRead (.rel v) = some (v, s) ∧
    s.opRead (.mem ea) = some (s.memRead ea) ∧ s.opRead .none = none ∧ s.opRead (.ptr ea) = none ∧
    s.opWrite .acc w = some { s with a := w } ∧ s.opWrite (.mem ea) w = some (s.memWrite ea w) ∧
    (∀ o ∈ [Operand.none, .imm v, .rel v, .ptr ea], s.opWrite o w = none) ∧
    opTarget (.mem ea) = some ea ∧ opTarget (.ptr ea) = some ea ∧
    ∀ o ∈ [Operand.none, .acc, .imm v, .rel v], opTarget o = none

/-- R118: writing back what was read through a write-capable operand leaves the targeted byte, and with it all
of A and of memory, unchanged (memory behind the address). -/
def Obligations.WritingBackTheOperandChangesNothing : Prop :=
  ∀ (s s1 s2 : State) (m : Mode) (v : Byte), Memory.wf s.mem →
    (∀ ea, (s.resolve m).1 = .mem ea → deviceCell s.params.device ea ≠ none) →
    s.readOperand m = some (v, s1) → s1.opWrite (s.resolve m).1 v = some s2 →
      s2.a = s.a ∧ s2.mem = s.mem

/-- From R48, R100 and R102: resolving and reading an operand changes nothing but the history, which gains reads
only. That PC does not move either rests on log 10 (DEDUCED): in R100 `Resolve` reads the operand bytes and
increments PC, and in the model the fetch has done so. -/
def Obligations.OperandReadsChangeOnlyTheHistory : Prop :=
  ∀ (s s1 : State) (m : Mode) (v : Byte), s.readOperand m = some (v, s1) →
    ∃ new : List Access, s1 = { s with history := new ++ s.history } ∧
      ∀ e ∈ new, ∃ addr b, e = .read addr b

/-! ### Instruction results -/

/-- R130: ADC, all eight forms. -/
def Obligations.AdcAddsTheOperandAndTheCarry : Prop :=
  ∀ (op b1 b2 : Byte) (k : ModeKind) (s : State),
    (op, k) ∈ ([(0x69, .imm), (0x65, .zp), (0x75, .zpx), (0x6D, .abs), (0x7D, .absx), (0x79, .absy),
      (0x61, .indx), (0x71, .indy)] : List (Byte × ModeKind)) →
    ∃ m s1, s.readOperand (k.withBytes b1 b2) = some (m, s1) ∧
      let sum : Nat := s.a.toNat + m.toNat + s.flags.c.toNat
      let r : Byte := BitVec.ofNat 8 sum
      exec (decodeInstr op b1 b2) s = .next { s1 with
        a := r
        flags := { s.flags with
          v := ((~~~(s.a ^^^ m)) &&& (s.a ^^^ r) &&& 0x80) != 0
          c := decide (sum > 0xFF)
          z := decide (r = 0)
          n := sum.testBit 7 } }

/-- R131: SBC, all eight forms. -/
def Obligations.SbcAddsTheComplementAndTheCarry : Prop :=
  ∀ (op b1 b2 : Byte) (k : ModeKind) (s : State),
    (op, k) ∈ ([(0xE9, .imm), (0xE5, .zp), (0xF5, .zpx), (0xED, .abs), (0xFD, .absx), (0xF9, .absy),
      (0xE1, .indx), (0xF1, .indy)] : List (Byte × ModeKind)) →
    ∃ m s1, s.readOperand (k.withBytes b1 b2) = some (m, s1) ∧
      let mc : Byte := m ^^^ 0xFF
      let sum : Nat := s.a.toNat + mc.toNat + s.flags.c.toNat
      let r : Byte := BitVec.ofNat 8 sum
      exec (decodeInstr op b1 b2) s = .next { s1 with
        a := r
        flags := { s.flags with
          v := ((~~~(s.a ^^^ mc)) &&& (s.a ^^^ r) &&& 0x80) != 0
          c := decide (sum > 0xFF)
          z := decide (r = 0)
          n := sum.testBit 7 } }

/-- The equivalent readings of R130 and R131, all forms: after ADC the carry is bit 8 of the sum, N is bit 7 of
the new A, and V is set exactly when the sum of the signed readings does not fit -128 to 127; SBC leaves
A - m - (1 - C) modulo 256, C says "no borrow", and V is set exactly when A and m have different signs and the
result's sign differs from A's. -/
def Obligations.AdcAndSbcMatchIntegerArithmetic : Prop :=
  ∀ (i : Instr) (s s1 t : State) (m : Byte), s.readOperand i.mode = some (m, s1) → exec i s = .next t →
    (i.mnemonic = .adc →
      t.a.toNat + 256 * t.flags.c.toNat = s.a.toNat + m.toNat + s.flags.c.toNat ∧
      t.flags.n = t.a.msb ∧
      (t.flags.v = true ↔
        s.a.toInt + m.toInt + s.flags.c.toNat > 127 ∨ s.a.toInt + m.toInt + s.flags.c.toNat < -128)) ∧
    (i.mnemonic = .sbc →
      (t.a.toNat : Int) = ((s.a.toNat : Int) - m.toNat - (1 - s.flags.c.toNat)) % 256 ∧
      (t.flags.c = true ↔ (s.a.toNat : Int) - m.toNat - (1 - s.flags.c.toNat) ≥ 0) ∧
      (t.flags.v = true ↔ s.a.msb ≠ m.msb ∧ t.a.msb ≠ s.a.msb))

/-- R132, R133, R134: AND, ORA and EOR, all eight forms of each. -/
def Obligations.LogicInstructionsUpdateTheAccumulator : Prop :=
  ∀ (op b1 b2 : Byte) (k : ModeKind) (s : State) (f : Byte → Byte → Byte),
    ((op, k) ∈ ([(0x29, .imm), (0x25, .zp), (0x35, .zpx), (0x2D, .abs), (0x3D, .absx), (0x39, .absy),
        (0x21, .indx), (0x31, .indy)] : List (Byte × ModeKind)) ∧ f = (fun a m => a &&& m)) ∨
    ((op, k) ∈ ([(0x09, .imm), (0x05, .zp), (0x15, .zpx), (0x0D, .abs), (0x1D, .absx), (0x19, .absy),
        (0x01, .indx), (0x11, .indy)] : List (Byte × ModeKind)) ∧ f = (fun a m => a ||| m)) ∨
    ((op, k) ∈ ([(0x49, .imm), (0x45, .zp), (0x55, .zpx), (0x4D, .abs), (0x5D, .absx), (0x59, .absy),
        (0x41, .indx), (0x51, .indy)] : List (Byte × ModeKind)) ∧ f = (fun a m => a ^^^ m)) →
    ∃ m s1, s.readOperand (k.withBytes b1 b2) = some (m, s1) ∧
      exec (decodeInstr op b1 b2) s = .next { s1 with
        a := f s.a m
        flags := { s.flags with n := (f s.a m).getLsbD 7, z := decide (f s.a m = 0) } }

/-- R140, R141: ASL and LSR, all five forms of each: one read, one write of the same operand. -/
def Obligations.ShiftsMoveOneBitOutToCarry : Prop :=
  ∀ (op b1 b2 : Byte) (k : ModeKind) (s : State),
    ((op, k) ∈ ([(0x0A, .acc), (0x06, .zp), (0x16, .zpx), (0x0E, .abs), (0x1E, .absx)]
        : List (Byte × ModeKind)) →
      ∃ v s1 s2, s.readOperand (k.withBytes b1 b2) = some (v, s1) ∧
        s1.opWrite (s.resolve (k.withBytes b1 b2)).1 (v <<< 1) = some s2 ∧
        exec (decodeInstr op b1 b2) s = .next { s2 with
          flags := { s.flags with c := v.getLsbD 7, n := (v <<< 1).getLsbD 7, z := decide (v <<< 1 = 0) } }) ∧
    ((op, k) ∈ ([(0x4A, .acc), (0x46, .zp), (0x56, .zpx), (0x4E, .abs), (0x5E, .absx)]
        : List (Byte × ModeKind)) →
      ∃ v s1 s2, s.readOperand (k.withBytes b1 b2) = some (v, s1) ∧
        s1.opWrite (s.resolve (k.withBytes b1 b2)).1 (v >>> 1) = some s2 ∧
        exec (decodeInstr op b1 b2) s = .next { s2 with
          flags := { s.flags with c := v.getLsbD 0, n := false, z := decide (v >>> 1 = 0) } })

/-- R142, R143: ROL and ROR, all five forms of each: the old carry enters the vacated bit. -/
def Obligations.RotatesPassThroughTheCarry : Prop :=
  ∀ (op b1 b2 : Byte) (k : ModeKind) (s : State),
    let cin : Byte := if s.flags.c then 1 else 0
    ((op, k) ∈ ([(0x2A, .acc), (0x26, .zp), (0x36, .zpx), (0x2E, .abs), (0x3E, .absx)]
        : List (Byte × ModeKind)) →
      ∃ v s1 s2, s.readOperand (k.withBytes b1 b2) = some (v, s1) ∧
        let r : Byte := (v <<< 1) ||| cin
        s1.opWrite (s.resolve (k.withBytes b1 b2)).1 r = some s2 ∧
        exec (decodeInstr op b1 b2) s = .next { s2 with
          flags := { s.flags with c := v.getLsbD 7, n := r.getLsbD 7, z := decide (r = 0) } }) ∧
    ((op, k) ∈ ([(0x6A, .acc), (0x66, .zp), (0x76, .zpx), (0x6E, .abs), (0x7E, .absx)]
        : List (Byte × ModeKind)) →
      ∃ v s1 s2, s.readOperand (k.withBytes b1 b2) = some (v, s1) ∧
        let r : Byte := (v >>> 1) ||| (cin <<< 7)
        s1.opWrite (s.resolve (k.withBytes b1 b2)).1 r = some s2 ∧ r.getLsbD 7 = s.flags.c ∧
        exec (decodeInstr op b1 b2) s = .next { s2 with
          flags := { s.flags with c := v.getLsbD 0, n := s.flags.c, z := decide (r = 0) } })

/-- R150, R151: INC and DEC, all four forms of each. -/
def Obligations.IncAndDecRewriteTheirOperand : Prop :=
  ∀ (op b1 b2 : Byte) (k : ModeKind) (s : State) (f : Byte → Byte),
    ((op, k) ∈ ([(0xE6, .zp), (0xF6, .zpx), (0xEE, .abs), (0xFE, .absx)] : List (Byte × ModeKind)) ∧
      f = fun v => v + 1) ∨
    ((op, k) ∈ ([(0xC6, .zp), (0xD6, .zpx), (0xCE, .abs), (0xDE, .absx)] : List (Byte × ModeKind)) ∧
      f = fun v => v - 1) →
    ∃ v s1 s2, s.readOperand (k.withBytes b1 b2) = some (v, s1) ∧
      s1.opWrite (s.resolve (k.withBytes b1 b2)).1 (f v) = some s2 ∧
      exec (decodeInstr op b1 b2) s = .next { s2 with
        flags := { s.flags with n := (f v).getLsbD 7, z := decide (f v = 0) } }

/-- R152 to R155: INX, INY, DEX and DEY. -/
def Obligations.IndexRegistersStepByOne : Prop :=
  ∀ (b1 b2 : Byte) (s : State),
    let nz : Byte → Flags := fun v => { s.flags with n := v.getLsbD 7, z := decide (v = 0) }
    exec (decodeInstr 0xE8 b1 b2) s = .next { s with x := s.x + 1, flags := nz (s.x + 1) } ∧
    exec (decodeInstr 0xC8 b1 b2) s = .next { s with y := s.y + 1, flags := nz (s.y + 1) } ∧
    exec (decodeInstr 0xCA b1 b2) s = .next { s with x := s.x - 1, flags := nz (s.x - 1) } ∧
    exec (decodeInstr 0x88 b1 b2) s = .next { s with y := s.y - 1, flags := nz (s.y - 1) }

/-- R160, R161, R162, R164: CMP, CPX and CPY, all forms: C, N and Z from the unsigned comparison, so that N is
the negation of C. -/
def Obligations.CompareSetsFlagsFromTheUnsignedOrder : Prop :=
  ∀ (op b1 b2 : Byte) (k : ModeKind) (s : State) (reg : Byte),
    ((op, k) ∈ ([(0xC9, .imm), (0xC5, .zp), (0xD5, .zpx), (0xCD, .abs), (0xDD, .absx), (0xD9, .absy),
        (0xC1, .indx), (0xD1, .indy)] : List (Byte × ModeKind)) ∧ reg = s.a) ∨
    ((op, k) ∈ ([(0xE0, .imm), (0xE4, .zp), (0xEC, .abs)] : List (Byte × ModeKind)) ∧ reg = s.x) ∨
    ((op, k) ∈ ([(0xC0, .imm), (0xC4, .zp), (0xCC, .abs)] : List (Byte × ModeKind)) ∧ reg = s.y) →
    ∃ m s1 t, s.readOperand (k.withBytes b1 b2) = some (m, s1) ∧
      exec (decodeInstr op b1 b2) s = .next t ∧
      t = { s1 with flags := { s.flags with
        c := decide (reg.toNat ≥ m.toNat), n := decide (reg.toNat < m.toNat), z := decide (reg = m) } } ∧
      t.flags.n = !t.flags.c

/-- R163: BIT, both forms. -/
def Obligations.BitTestsWithoutWriting : Prop :=
  ∀ (op b1 b2 : Byte) (k : ModeKind) (s : State),
    (op, k) ∈ ([(0x24, .zp), (0x2C, .abs)] : List (Byte × ModeKind)) →
    ∃ m s1, s.readOperand (k.withBytes b1 b2) = some (m, s1) ∧
      exec (decodeInstr op b1 b2) s = .next { s1 with
        flags := { s.flags with z := decide (s.a &&& m = 0), n := m.getLsbD 7, v := m.getLsbD 6 } }

/-- R170 to R178: the eight branches: taken, the signed displacement is added to the PC after the operand
byte, modulo 65536; not taken, nothing changes. -/
def Obligations.BranchesAddTheSignedDisplacement : Prop :=
  ∀ (op rel8 b2 : Byte) (cond : Bool) (s : State),
    (op, cond) ∈ ([(0x90, !s.flags.c), (0xB0, s.flags.c), (0xF0, s.flags.z), (0xD0, !s.flags.z),
      (0x30, s.flags.n), (0x10, !s.flags.n), (0x50, !s.flags.v), (0x70, s.flags.v)]
      : List (Byte × Bool)) →
    ∃ t, exec (decodeInstr op rel8 b2) s = .next { s with pc := t } ∧
      (t.toNat : Int) = ((s.pc.toNat : Int) + if cond then rel8.toInt else 0) % 65536

/-- R180 to R183: PHA pushes A; PHP pushes the status byte with bits 4 and 5 set and reads no stored B; PLA
pulls A and sets N and Z from it; PLP loads all seven flags from the pulled byte. -/
def Obligations.StackInstructionsMoveOneByte : Prop :=
  ∀ (b1 b2 : Byte) (s : State),
    let v := s.pull.1
    exec (decodeInstr 0x48 b1 b2) s = .next (s.push s.a) ∧
    exec (decodeInstr 0x08 b1 b2) s = .next (s.push (s.flags.encode ||| 0x10)) ∧
    s.flags.encode ||| 0x10 = { s.flags with b := !s.flags.b }.encode ||| 0x10 ∧
    exec (decodeInstr 0x68 b1 b2) s = .next { s.pull.2 with
      a := v, flags := { s.flags with n := v.getLsbD 7, z := decide (v = 0) } } ∧
    exec (decodeInstr 0x28 b1 b2) s = .next { s.pull.2 with
      flags := { n := v.getLsbD 7, v := v.getLsbD 6, b := v.getLsbD 4, d := v.getLsbD 3,
                 i := v.getLsbD 2, z := v.getLsbD 1, c := v.getLsbD 0 } }

/-- R184 to R189: the six transfers; all but TXS set N and Z from the register written. -/
def Obligations.TransfersCopyOneRegister : Prop :=
  ∀ (b1 b2 : Byte) (s : State),
    let nz : Byte → Flags := fun v => { s.flags with n := v.getLsbD 7, z := decide (v = 0) }
    exec (decodeInstr 0xBA b1 b2) s = .next { s with x := s.sp, flags := nz s.sp } ∧
    exec (decodeInstr 0x9A b1 b2) s = .next { s with sp := s.x } ∧
    exec (decodeInstr 0xAA b1 b2) s = .next { s with x := s.a, flags := nz s.a } ∧
    exec (decodeInstr 0xA8 b1 b2) s = .next { s with y := s.a, flags := nz s.a } ∧
    exec (decodeInstr 0x8A b1 b2) s = .next { s with a := s.x, flags := nz s.x } ∧
    exec (decodeInstr 0x98 b1 b2) s = .next { s with a := s.y, flags := nz s.y }

/-- R200: JMP sets PC to the absolute operand without reading it, or to the word the indirect mode read. -/
def Obligations.JmpSetsThePc : Prop :=
  ∀ (b1 b2 : Byte) (s : State),
    exec (decodeInstr 0x4C b1 b2) s = .next { s with pc := b2 ++ b1 } ∧
    ∃ t s1, s.resolve (.ind (b2 ++ b1)) = (.ptr t, s1) ∧
      exec (decodeInstr 0x6C b1 b2) s = .next { s1 with pc := t }

/-- R201: JSR pushes PC - 1, the address of its last byte, high byte first, and jumps. -/
def Obligations.JsrPushesTheAddressOfItsLastByte : Prop :=
  ∀ (b1 b2 : Byte) (s : State),
    let ret : Word := s.pc - 1
    exec (decodeInstr 0x20 b1 b2) s = .next
      { (s.push (ret.extractLsb' 8 8)).push (ret.extractLsb' 0 8) with pc := b2 ++ b1 }

/-- R202: RTS pulls the low and then the high byte, and PC takes the pulled address plus 1. -/
def Obligations.RtsResumesAfterThePulledAddress : Prop :=
  ∀ (b1 b2 : Byte) (s : State),
    let lo := s.pull
    let hi := lo.2.pull
    exec (decodeInstr 0x60 b1 b2) s = .next { hi.2 with pc := (hi.1 ++ lo.1 : Word) + 1 }

/-- R202: on the FLAT device JSR and then RTS restore SP and leave PC at the instruction after the JSR. -/
def Obligations.JsrThenRtsReturnsAfterTheCall : Prop :=
  ∀ (s : State) (target : Word), s.params.device = [] → Memory.wf s.mem →
    ∃ s1 s2, exec (.jsr target) s = .next s1 ∧ s1.pc = target ∧ exec .rts s1 = .next s2 ∧
      s2.pc = s.pc ∧ s2.sp = s.sp ∧ s2.flags = s.flags ∧ s2.a = s.a ∧ s2.x = s.x ∧ s2.y = s.y

/-- R210, R302: BRK reads the vector, pushes PC high, PC low and the status byte with bit 4 set, jumps to the
vector's target and then sets I; whatever I holds, it is taken. It leaves SP 3 lower modulo 256 and five
accesses, in the order vector low, vector high, PC high, PC low, status. -/
def Obligations.BrkEntersTheHandler : Prop :=
  ∀ (b1 b2 : Byte) (s : State), ∃ t lo hi,
    exec (decodeInstr 0x00 b1 b2) s = .next t ∧
    (let target := s.memRead16 s.params.irqVector
     t = { ((target.2.push (s.pc.extractLsb' 8 8)).push (s.pc.extractLsb' 0 8)).push
            (s.flags.encode ||| 0x10) with
          pc := target.1, flags := { s.flags with i := true } }) ∧
    t.history =
      .write (0x0100 + (s.sp - 2).setWidth 16) (s.flags.encode ||| 0x10) ::
      .write (0x0100 + (s.sp - 1).setWidth 16) (s.pc.extractLsb' 0 8) ::
      .write (0x0100 + s.sp.setWidth 16) (s.pc.extractLsb' 8 8) ::
      .read (s.params.irqVector + 1) hi :: .read s.params.irqVector lo :: s.history ∧
    t.pc = hi ++ lo ∧ t.sp = s.sp - 3

/-- R211: RTI pulls the status byte into all seven flags, then PC low and high, and adds nothing. -/
def Obligations.RtiRestoresFlagsAndPc : Prop :=
  ∀ (b1 b2 : Byte) (s : State),
    let st := s.pull
    let lo := st.2.pull
    let hi := lo.2.pull
    exec (decodeInstr 0x40 b1 b2) s = .next { hi.2 with
      pc := hi.1 ++ lo.1
      flags := { n := st.1.getLsbD 7, v := st.1.getLsbD 6, b := st.1.getLsbD 4, d := st.1.getLsbD 3,
                 i := st.1.getLsbD 2, z := st.1.getLsbD 1, c := st.1.getLsbD 0 } }

/-- R212: on the FLAT device, an executed BRK whose handler's first byte is an RTI: two steps later PC is the
address after the BRK; SP, A, X, Y and every flag but B are as before, B is 1, and memory differs only in the
three stack bytes written. -/
def Obligations.BrkThenRtiRoundTrip : Prop :=
  ∀ s s1 : State, s.params.device = [] → Memory.wf s.mem → s.run = .running → s.peek s.pc = 0x00 →
    s.breakCount + 1 ≤ s.params.maxBreakCount → step s = .next s1 → s1.peek s1.pc = 0x40 →
    ∃ s2, step s1 = .next s2 ∧ s2.pc = s.pc + 1 ∧ s2.sp = s.sp ∧ s2.a = s.a ∧ s2.x = s.x ∧ s2.y = s.y ∧
      s2.flags = { s.flags with b := true } ∧
      ∀ addr : Word, addr ≠ 0x0100 + s.sp.setWidth 16 → addr ≠ 0x0100 + (s.sp - 1).setWidth 16 →
        addr ≠ 0x0100 + (s.sp - 2).setWidth 16 → s2.memByte addr = s.memByte addr

/-- R220 to R227: each flag instruction writes exactly its flag, and NOP changes nothing. -/
def Obligations.FlagInstructionsWriteOneFlag : Prop :=
  ∀ (b1 b2 : Byte) (s : State),
    exec (decodeInstr 0x18 b1 b2) s = .next { s with flags := { s.flags with c := false } } ∧
    exec (decodeInstr 0xD8 b1 b2) s = .next { s with flags := { s.flags with d := false } } ∧
    exec (decodeInstr 0x58 b1 b2) s = .next { s with flags := { s.flags with i := false } } ∧
    exec (decodeInstr 0xB8 b1 b2) s = .next { s with flags := { s.flags with v := false } } ∧
    exec (decodeInstr 0x38 b1 b2) s = .next { s with flags := { s.flags with c := true } } ∧
    exec (decodeInstr 0xF8 b1 b2) s = .next { s with flags := { s.flags with d := true } } ∧
    exec (decodeInstr 0x78 b1 b2) s = .next { s with flags := { s.flags with i := true } } ∧
    exec (decodeInstr 0xEA b1 b2) s = .next s

/-- R228, R229, R230: LDA, LDX and LDY, all forms: the register takes the operand, N and Z follow it. -/
def Obligations.LoadsCopyTheOperand : Prop :=
  ∀ (op b1 b2 : Byte) (k : ModeKind) (s : State),
    let nz : Byte → Flags := fun v => { s.flags with n := v.getLsbD 7, z := decide (v = 0) }
    ((op, k) ∈ ([(0xA9, .imm), (0xA5, .zp), (0xB5, .zpx), (0xAD, .abs), (0xBD, .absx), (0xB9, .absy),
        (0xA1, .indx), (0xB1, .indy)] : List (Byte × ModeKind)) →
      ∃ m s1, s.readOperand (k.withBytes b1 b2) = some (m, s1) ∧
        exec (decodeInstr op b1 b2) s = .next { s1 with a := m, flags := nz m }) ∧
    ((op, k) ∈ ([(0xA2, .imm), (0xA6, .zp), (0xB6, .zpy), (0xAE, .abs), (0xBE, .absy)]
        : List (Byte × ModeKind)) →
      ∃ m s1, s.readOperand (k.withBytes b1 b2) = some (m, s1) ∧
        exec (decodeInstr op b1 b2) s = .next { s1 with x := m, flags := nz m }) ∧
    ((op, k) ∈ ([(0xA0, .imm), (0xA4, .zp), (0xB4, .zpx), (0xAC, .abs), (0xBC, .absx)]
        : List (Byte × ModeKind)) →
      ∃ m s1, s.readOperand (k.withBytes b1 b2) = some (m, s1) ∧
        exec (decodeInstr op b1 b2) s = .next { s1 with y := m, flags := nz m })

/-- R231, R232, R233: STA, STX and STY, all forms: the register is written at the effective address, which is
not read, and nothing else changes. -/
def Obligations.StoresWriteTheirRegister : Prop :=
  ∀ (op b1 b2 : Byte) (k : ModeKind) (s : State) (reg : Byte),
    ((op, k) ∈ ([(0x85, .zp), (0x95, .zpx), (0x8D, .abs), (0x9D, .absx), (0x99, .absy), (0x81, .indx),
        (0x91, .indy)] : List (Byte × ModeKind)) ∧ reg = s.a) ∨
    ((op, k) ∈ ([(0x86, .zp), (0x96, .zpy), (0x8E, .abs)] : List (Byte × ModeKind)) ∧ reg = s.x) ∨
    ((op, k) ∈ ([(0x84, .zp), (0x94, .zpx), (0x8C, .abs)] : List (Byte × ModeKind)) ∧ reg = s.y) →
    ∃ ea s1, s.resolve (k.withBytes b1 b2) = (.mem ea, s1) ∧
      exec (decodeInstr op b1 b2) s = .next (s1.memWrite ea reg)

/-- R58: the byte a store wrote is the byte a fetch at its address reads next (memory behind the address). -/
def Obligations.StoreIsSeenByTheNextFetch : Prop :=
  ∀ (i : Instr) (s t : State) (ea : Word) (reg : Byte), Memory.wf s.mem →
    (i.mnemonic = .sta ∧ reg = s.a) ∨ (i.mnemonic = .stx ∧ reg = s.x) ∨ (i.mnemonic = .sty ∧ reg = s.y) →
    (s.resolve i.mode).1 = .mem ea → deviceCell s.params.device ea ≠ none → exec i s = .next t →
      { t with pc := ea }.nextByte.1 = reg

/-! ### Frames over all instructions -/

/-- R22, R23, R24, R26: which instructions may write A, X, Y and SP; under every other one the register keeps
its value. -/
def Obligations.RegistersChangeOnlyUnderTheirWriters : Prop :=
  ∀ (i : Instr) (s t : State), exec i s = .next t →
    (i.mnemonic ∉ [Mnemonic.adc, .sbc, .and, .ora, .eor, .pla, .txa, .tya, .lda] →
      i.mode ≠ .acc → t.a = s.a) ∧
    (i.mnemonic ∉ [Mnemonic.inx, .dex, .tax, .tsx, .ldx] → t.x = s.x) ∧
    (i.mnemonic ∉ [Mnemonic.iny, .dey, .tay, .ldy] → t.y = s.y) ∧
    (i.mnemonic ∉ [Mnemonic.pha, .php, .pla, .plp, .jsr, .rts, .brk, .rti, .txs] → t.sp = s.sp)

/-- R27: which instructions may write each flag; under every other one the flag keeps its value. -/
def Obligations.FlagsChangeOnlyUnderTheirWriters : Prop :=
  ∀ (i : Instr) (s t : State), exec i s = .next t →
    (i.mnemonic ∉ [Mnemonic.adc, .sbc, .and, .ora, .eor, .asl, .lsr, .rol, .ror, .inc, .dec, .inx, .iny,
      .dex, .dey, .cmp, .cpx, .cpy, .bit, .pla, .plp, .tax, .tay, .txa, .tya, .tsx, .lda, .ldx, .ldy, .rti] →
      t.flags.n = s.flags.n ∧ t.flags.z = s.flags.z) ∧
    (i.mnemonic ∉ [Mnemonic.adc, .sbc, .bit, .clv, .plp, .rti] → t.flags.v = s.flags.v) ∧
    (i.mnemonic ∉ [Mnemonic.plp, .rti] → t.flags.b = s.flags.b) ∧
    (i.mnemonic ∉ [Mnemonic.cld, .sed, .plp, .rti] → t.flags.d = s.flags.d) ∧
    (i.mnemonic ∉ [Mnemonic.cli, .sei, .brk, .plp, .rti] → t.flags.i = s.flags.i) ∧
    (i.mnemonic ∉ [Mnemonic.adc, .sbc, .asl, .lsr, .rol, .ror, .cmp, .cpx, .cpy, .clc, .sec, .plp, .rti] →
      t.flags.c = s.flags.c)

/-- R25, R32, R33, R5: after the fetch only the control-flow instructions write PC, only the sentinel changes
the run state, and no instruction writes the break count or a parameter. -/
def Obligations.ControlStateChangesOnlyUnderItsWriters : Prop :=
  ∀ (i : Instr) (s t : State), exec i s = .next t →
    (i.mnemonic ∉ [Mnemonic.bcc, .bcs, .beq, .bne, .bmi, .bpl, .bvc, .bvs, .jmp, .jsr, .rts, .brk, .rti] →
      t.pc = s.pc) ∧
    (i.mnemonic ≠ .unimplemented → t.run = s.run) ∧
    t.breakCount = s.breakCount ∧ t.params = s.params

/-- R48: an instruction that stores nothing leaves every byte of memory unchanged. -/
def Obligations.NonStoringInstructionsKeepMemory : Prop :=
  ∀ (i : Instr) (s t : State), exec i s = .next t →
    i.mnemonic ∉ [Mnemonic.sta, .stx, .sty, .asl, .lsr, .rol, .ror, .inc, .dec, .pha, .php, .jsr, .brk] →
      t.mem = s.mem ∧ ∀ addr, t.memByte addr = s.memByte addr

/-- R48, R103: a store or a read-modify-write changes memory only at the cell of its effective address, and
its accumulator form changes none. Where the address is a peripheral's, that no cell changes is the model's choice
(log 7, DESIGN CHOICE). -/
def Obligations.OperandStoresChangeOnlyTheirCell : Prop :=
  ∀ (i : Instr) (s t : State), Memory.wf s.mem → exec i s = .next t →
    i.mnemonic ∈ [Mnemonic.sta, .stx, .sty, .asl, .lsr, .rol, .ror, .inc, .dec] →
    (∀ ea, (s.resolve i.mode).1 = .mem ea → ∀ addr,
      deviceCell s.params.device addr ≠ deviceCell s.params.device ea → t.memByte addr = s.memByte addr) ∧
    ((s.resolve i.mode).1 = .acc → ∀ addr, t.memByte addr = s.memByte addr) ∧
    ((s.resolve i.mode).1 = .acc ∨ ∃ ea, (s.resolve i.mode).1 = .mem ea)

/-- R50, R201, R302: the pushing instructions change memory only at the stack slots they push to. Where a slot is
a peripheral's address, that no cell changes is the model's choice (log 7, DESIGN CHOICE). -/
def Obligations.PushesChangeOnlyTheirStackSlots : Prop :=
  ∀ (i : Instr) (s t : State) (slots : List Word), Memory.wf s.mem → exec i s = .next t →
    ((i.mnemonic = .pha ∨ i.mnemonic = .php) ∧ slots = [stackAddr s.sp]) ∨
    (i.mnemonic = .jsr ∧ slots = [stackAddr s.sp, stackAddr (s.sp - 1)]) ∨
    (i.mnemonic = .brk ∧ slots = [stackAddr s.sp, stackAddr (s.sp - 1), stackAddr (s.sp - 2)]) →
    ∀ addr, (∀ slot ∈ slots, deviceCell s.params.device addr ≠ deviceCell s.params.device slot) →
      t.memByte addr = s.memByte addr

/-! ### Invariants and rules of the whole machine -/

/-- The invariant holds at reset, and at every launch on a memory in canonical form. -/
def Obligations.InvariantHoldsAtLaunch : Prop :=
  State.reset.Inv ∧
  ∀ (a x y sp : Byte) (pc : Word) (f : Flags) (m : Memory) (p : Params), Memory.wf m →
    (State.launch a x y sp pc f m p).Inv

/-- Every step keeps the invariant: the memory stays in canonical form, and the break count, the run state and
the PC stay consistent. -/
def Obligations.EveryStepKeepsTheInvariant : Prop :=
  ∀ s t : State, s.Inv → step s = .next t → t.Inv

/-- R70, R307: in a run from any launch with `MAX_BREAK_COUNT` = k the break count never exceeds k + 1, and it
reaches k + 1 exactly when the engine has halted. -/
def Obligations.RunCountsAtMostMaxBreaks : Prop :=
  ∀ (n : Nat) (a x y sp : Byte) (pc : Word) (f : Flags) (m : Memory) (p : Params),
    let s := runLoop n (State.launch a x y sp pc f m p)
    s.breakCount ≤ p.maxBreakCount + 1 ∧ (s.run = .halted ↔ s.breakCount = p.maxBreakCount + 1) ∧
    s.params = p

/-- R55: in a run from any launch, memory is the launch content with the writes of the access history applied
in order, and every read returned the most recent write to its cell, or the launch content. The peripheral case,
where a write changes no cell and the byte read is a function of the history before it and the address, is the
model's choice (log 7, DESIGN CHOICE). -/
def Obligations.RunIsSequentiallyConsistent : Prop :=
  ∀ (n : Nat) (a x y sp : Byte) (pc : Word) (f : Flags) (m : Memory) (p : Params),
    let s := runLoop n (State.launch a x y sp pc f m p)
    s.mem = replay p.device m s.history ∧ readsAgree p.device m [] s.history

/-- R48, R303: a step only adds events to the access history, at least the opcode read, and memory after it is
memory before it with the step's writes applied. That a write to a peripheral changes no cell is the model's choice
(log 7, DESIGN CHOICE). -/
def Obligations.StepExtendsTheHistory : Prop :=
  ∀ s t : State, step s = .next t →
    ∃ new : List Access, t.history = new ++ (.read s.pc (s.peek s.pc) :: s.history) ∧ new.length ≤ 5 ∧
      t.mem = replay s.params.device s.mem new

/-- R31: the stored B flag is observable by no instruction: two machines that differ only in it step to
outcomes that differ at most in it. Both machines stand before one and the same oracle: where the device has a
peripheral, the statement rests on equal histories giving equal bytes, the model's choice (log 7, DESIGN CHOICE,
unsafe for such a claim), which R46 does not promise. -/
def Obligations.StoredBFlagIsUnobservable : Prop :=
  ∀ s t : State, sameButB s t → outcomesSameButB (step s) (step t)
end

