-- ==== Sys2Proof/Laws/Memory.lean ====
section
/-! SUPPORT. Read after write, and that every memory operation keeps the canonical form. -/

namespace Sys2Proof.Machine

theorem Memory.read_eq_unlisted_of_lt {m : Memory} {k : Nat} (h : ∀ c ∈ m, k < c.1) :
    Memory.read m k = unlistedByte := by
  induction m with
  | nil => rfl
  | cons c m ih =>
    have hk := h c (by simp)
    simp only [Memory.read, if_neg (show ¬ c.1 = k by omega)]
    exact ih fun d hd => h d (by simp [hd])

theorem Memory.wf_tail {c : Host.Cell} {m : Memory} (h : Memory.wf (c :: m)) : Memory.wf m :=
  ⟨(List.pairwise_cons.1 h.1).2, fun d hd => h.2 d (by simp [hd])⟩

theorem Memory.head_lt {c : Host.Cell} {m : Memory} (h : Memory.wf (c :: m)) : ∀ d ∈ m, c.1 < d.1 :=
  (List.pairwise_cons.1 h.1).1

/-- The cells of `put` are the new one and the old ones. -/
theorem Memory.mem_put {c : Host.Cell} {k : Nat} {v : Byte} {m : Memory} (h : c ∈ Memory.put k v m) :
    c = (k, v) ∧ v ≠ unlistedByte ∨ c ∈ m := by
  unfold Memory.put at h
  split at h
  · exact .inr h
  · rcases List.mem_cons.1 h with rfl | h
    · exact .inl ⟨rfl, ‹_›⟩
    · exact .inr h

theorem Memory.wf_put {k : Nat} {v : Byte} {m : Memory} (h : Memory.wf m) (hk : k < 65536)
    (hlt : ∀ c ∈ m, k < c.1) : Memory.wf (Memory.put k v m) := by
  unfold Memory.put
  split
  · exact h
  · refine ⟨List.pairwise_cons.2 ⟨hlt, h.1⟩, fun c hc => ?_⟩
    rcases List.mem_cons.1 hc with rfl | hc
    · exact ⟨‹_›, hk⟩
    · exact h.2 c hc

theorem Memory.read_put {k j : Nat} {v : Byte} {m : Memory} (hlt : ∀ c ∈ m, k < c.1) :
    Memory.read (Memory.put k v m) j = if k = j then v else Memory.read m j := by
  unfold Memory.put
  split
  · split
    · subst_vars; exact Memory.read_eq_unlisted_of_lt hlt
    · rfl
  · rfl

/-- The cells of a memory after a write are the written one and old ones. -/
theorem Memory.mem_write {c : Host.Cell} {k : Nat} {v : Byte} {m : Memory}
    (h : c ∈ Memory.write m k v) : c = (k, v) ∧ v ≠ unlistedByte ∨ c ∈ m := by
  induction m with
  | nil => simpa using Memory.mem_put h
  | cons d m ih =>
    simp only [Memory.write] at h
    split at h
    · exact Memory.mem_put h
    · split at h
      · exact (Memory.mem_put h).imp_right fun h => by simp [h]
      · rcases List.mem_cons.1 h with rfl | h
        · simp
        · exact (ih h).imp_right fun h => by simp [h]

/-- A write keeps the canonical form. -/
theorem Memory.wf_write {m : Memory} {k : Nat} {v : Byte} (h : Memory.wf m) (hk : k < 65536) :
    Memory.wf (Memory.write m k v) := by
  induction m with
  | nil => exact Memory.wf_put h hk (by simp)
  | cons c m ih =>
    have hm := Memory.wf_tail h
    have hlt := Memory.head_lt h
    simp only [Memory.write]
    split
    · refine Memory.wf_put h hk fun d hd => ?_
      rcases List.mem_cons.1 hd with rfl | hd
      · assumption
      · have := hlt d hd; omega
    · split
      · exact Memory.wf_put hm hk fun d hd => by have := hlt d hd; omega
      · refine ⟨List.pairwise_cons.2 ⟨fun d hd => ?_, (ih hm).1⟩, fun d hd => ?_⟩
        · rcases Memory.mem_write hd with ⟨rfl, -⟩ | hd
          · dsimp only; omega
          · exact hlt d hd
        · rcases List.mem_cons.1 hd with rfl | hd
          · exact h.2 d (by simp)
          · exact (ih hm).2 d hd

/-- Read after write: the written cell holds the byte, every other cell what it held. -/
theorem Memory.read_write {m : Memory} {k j : Nat} {v : Byte} (h : Memory.wf m) :
    Memory.read (Memory.write m k v) j = if k = j then v else Memory.read m j := by
  induction m with
  | nil => exact Memory.read_put (by simp)
  | cons c m ih =>
    have hlt := Memory.head_lt h
    simp only [Memory.write]
    split
    · refine Memory.read_put fun d hd => ?_
      rcases List.mem_cons.1 hd with rfl | hd
      · assumption
      · have := hlt d hd; omega
    · split
      · rw [Memory.read_put fun d hd => by have := hlt d hd; omega]
        subst_vars
        simp only [Memory.read]
        split <;> simp_all
      · simp only [Memory.read, ih (Memory.wf_tail h)]
        split
        · rw [if_neg (by omega)]
        · rfl

/-- In canonical form, writing what a cell already holds changes nothing. -/
theorem Memory.write_read_self {m : Memory} {k : Nat} (h : Memory.wf m) :
    Memory.write m k (Memory.read m k) = m := by
  induction m with
  | nil => simp [Memory.write, Memory.read, Memory.put]
  | cons c m ih =>
    have hlt := Memory.head_lt h
    simp only [Memory.write]
    split
    · rw [Memory.read_eq_unlisted_of_lt]
      · simp [Memory.put]
      · intro d hd
        rcases List.mem_cons.1 hd with rfl | hd
        · assumption
        · have := hlt d hd; omega
    · split
      · subst_vars
        simp [Memory.read, Memory.put, (h.2 c (by simp)).1]
      · simp only [Memory.read, if_neg (show ¬ c.1 = k by omega), ih (Memory.wf_tail h)]

/-! ### The device -/

@[simp] theorem deviceCell_flat (addr : Word) : deviceCell [] addr = some addr := rfl

/-- A poke keeps the canonical form. -/
theorem wf_memAfterPoke {device : List Region} {m : Memory} {addr : Word} {v : Byte}
    (h : Memory.wf m) : Memory.wf (memAfterPoke device m addr v) := by
  unfold memAfterPoke
  split
  · exact Memory.wf_write h (by omega)
  · exact h

/-- What memory holds at an address after a poke. -/
theorem read_memAfterPoke {device : List Region} {m : Memory} {addr : Word} {v : Byte} {j : Word}
    (h : Memory.wf m) : Memory.read (memAfterPoke device m addr v) j.toNat =
      if deviceCell device addr = some j then v else Memory.read m j.toNat := by
  unfold memAfterPoke
  split
  · rename_i cell hc
    rw [Memory.read_write h, hc]
    simp only [Option.some.injEq, BitVec.toNat_inj]
  · rename_i hc
    simp [hc]

theorem State.peek_eq_of_cell {s : State} {addr cell : Word} (h : deviceCell s.params.device addr = some cell) :
    s.peek addr = Memory.read s.mem cell.toNat := by
  simp [State.peek, h]

theorem State.peek_flat {s : State} (h : s.params.device = []) (addr : Word) :
    s.peek addr = Memory.read s.mem addr.toNat := by
  simp [State.peek, h]

theorem State.memByte_eq_of_cell {s : State} {addr cell : Word}
    (h : deviceCell s.params.device addr = some cell) : s.memByte addr = some (s.peek addr) := by
  simp [State.memByte, State.peek, h]

end Sys2Proof.Machine
end

