-- ==== Sys2Proof/Laws/State.lean ====
section
/-! SUPPORT. One lemma per field per update of the state, so that no proof unfolds a record update. -/

namespace Sys2Proof.Machine

@[simp] theorem State.setA_a (s : State) (e : Byte) : (s.setA e).a = e := rfl
@[simp] theorem State.setA_x (s : State) (e : Byte) : (s.setA e).x = s.x := rfl
@[simp] theorem State.setA_y (s : State) (e : Byte) : (s.setA e).y = s.y := rfl
@[simp] theorem State.setA_sp (s : State) (e : Byte) : (s.setA e).sp = s.sp := rfl
@[simp] theorem State.setA_pc (s : State) (e : Byte) : (s.setA e).pc = s.pc := rfl
@[simp] theorem State.setA_flags (s : State) (e : Byte) : (s.setA e).flags = s.flags := rfl
@[simp] theorem State.setA_run (s : State) (e : Byte) : (s.setA e).run = s.run := rfl
@[simp] theorem State.setA_breakCount (s : State) (e : Byte) : (s.setA e).breakCount = s.breakCount := rfl
@[simp] theorem State.setA_mem (s : State) (e : Byte) : (s.setA e).mem = s.mem := rfl
@[simp] theorem State.setA_history (s : State) (e : Byte) : (s.setA e).history = s.history := rfl
@[simp] theorem State.setA_params (s : State) (e : Byte) : (s.setA e).params = s.params := rfl

@[simp] theorem State.setX_a (s : State) (e : Byte) : (s.setX e).a = s.a := rfl
@[simp] theorem State.setX_x (s : State) (e : Byte) : (s.setX e).x = e := rfl
@[simp] theorem State.setX_y (s : State) (e : Byte) : (s.setX e).y = s.y := rfl
@[simp] theorem State.setX_sp (s : State) (e : Byte) : (s.setX e).sp = s.sp := rfl
@[simp] theorem State.setX_pc (s : State) (e : Byte) : (s.setX e).pc = s.pc := rfl
@[simp] theorem State.setX_flags (s : State) (e : Byte) : (s.setX e).flags = s.flags := rfl
@[simp] theorem State.setX_run (s : State) (e : Byte) : (s.setX e).run = s.run := rfl
@[simp] theorem State.setX_breakCount (s : State) (e : Byte) : (s.setX e).breakCount = s.breakCount := rfl
@[simp] theorem State.setX_mem (s : State) (e : Byte) : (s.setX e).mem = s.mem := rfl
@[simp] theorem State.setX_history (s : State) (e : Byte) : (s.setX e).history = s.history := rfl
@[simp] theorem State.setX_params (s : State) (e : Byte) : (s.setX e).params = s.params := rfl

@[simp] theorem State.setY_a (s : State) (e : Byte) : (s.setY e).a = s.a := rfl
@[simp] theorem State.setY_x (s : State) (e : Byte) : (s.setY e).x = s.x := rfl
@[simp] theorem State.setY_y (s : State) (e : Byte) : (s.setY e).y = e := rfl
@[simp] theorem State.setY_sp (s : State) (e : Byte) : (s.setY e).sp = s.sp := rfl
@[simp] theorem State.setY_pc (s : State) (e : Byte) : (s.setY e).pc = s.pc := rfl
@[simp] theorem State.setY_flags (s : State) (e : Byte) : (s.setY e).flags = s.flags := rfl
@[simp] theorem State.setY_run (s : State) (e : Byte) : (s.setY e).run = s.run := rfl
@[simp] theorem State.setY_breakCount (s : State) (e : Byte) : (s.setY e).breakCount = s.breakCount := rfl
@[simp] theorem State.setY_mem (s : State) (e : Byte) : (s.setY e).mem = s.mem := rfl
@[simp] theorem State.setY_history (s : State) (e : Byte) : (s.setY e).history = s.history := rfl
@[simp] theorem State.setY_params (s : State) (e : Byte) : (s.setY e).params = s.params := rfl

@[simp] theorem State.setSp_a (s : State) (e : Byte) : (s.setSp e).a = s.a := rfl
@[simp] theorem State.setSp_x (s : State) (e : Byte) : (s.setSp e).x = s.x := rfl
@[simp] theorem State.setSp_y (s : State) (e : Byte) : (s.setSp e).y = s.y := rfl
@[simp] theorem State.setSp_sp (s : State) (e : Byte) : (s.setSp e).sp = e := rfl
@[simp] theorem State.setSp_pc (s : State) (e : Byte) : (s.setSp e).pc = s.pc := rfl
@[simp] theorem State.setSp_flags (s : State) (e : Byte) : (s.setSp e).flags = s.flags := rfl
@[simp] theorem State.setSp_run (s : State) (e : Byte) : (s.setSp e).run = s.run := rfl
@[simp] theorem State.setSp_breakCount (s : State) (e : Byte) : (s.setSp e).breakCount = s.breakCount := rfl
@[simp] theorem State.setSp_mem (s : State) (e : Byte) : (s.setSp e).mem = s.mem := rfl
@[simp] theorem State.setSp_history (s : State) (e : Byte) : (s.setSp e).history = s.history := rfl
@[simp] theorem State.setSp_params (s : State) (e : Byte) : (s.setSp e).params = s.params := rfl

@[simp] theorem State.setPc_a (s : State) (e : Word) : (s.setPc e).a = s.a := rfl
@[simp] theorem State.setPc_x (s : State) (e : Word) : (s.setPc e).x = s.x := rfl
@[simp] theorem State.setPc_y (s : State) (e : Word) : (s.setPc e).y = s.y := rfl
@[simp] theorem State.setPc_sp (s : State) (e : Word) : (s.setPc e).sp = s.sp := rfl
@[simp] theorem State.setPc_pc (s : State) (e : Word) : (s.setPc e).pc = e := rfl
@[simp] theorem State.setPc_flags (s : State) (e : Word) : (s.setPc e).flags = s.flags := rfl
@[simp] theorem State.setPc_run (s : State) (e : Word) : (s.setPc e).run = s.run := rfl
@[simp] theorem State.setPc_breakCount (s : State) (e : Word) : (s.setPc e).breakCount = s.breakCount := rfl
@[simp] theorem State.setPc_mem (s : State) (e : Word) : (s.setPc e).mem = s.mem := rfl
@[simp] theorem State.setPc_history (s : State) (e : Word) : (s.setPc e).history = s.history := rfl
@[simp] theorem State.setPc_params (s : State) (e : Word) : (s.setPc e).params = s.params := rfl

@[simp] theorem State.setFlags_a (s : State) (e : Flags) : (s.setFlags e).a = s.a := rfl
@[simp] theorem State.setFlags_x (s : State) (e : Flags) : (s.setFlags e).x = s.x := rfl
@[simp] theorem State.setFlags_y (s : State) (e : Flags) : (s.setFlags e).y = s.y := rfl
@[simp] theorem State.setFlags_sp (s : State) (e : Flags) : (s.setFlags e).sp = s.sp := rfl
@[simp] theorem State.setFlags_pc (s : State) (e : Flags) : (s.setFlags e).pc = s.pc := rfl
@[simp] theorem State.setFlags_flags (s : State) (e : Flags) : (s.setFlags e).flags = e := rfl
@[simp] theorem State.setFlags_run (s : State) (e : Flags) : (s.setFlags e).run = s.run := rfl
@[simp] theorem State.setFlags_breakCount (s : State) (e : Flags) : (s.setFlags e).breakCount = s.breakCount := rfl
@[simp] theorem State.setFlags_mem (s : State) (e : Flags) : (s.setFlags e).mem = s.mem := rfl
@[simp] theorem State.setFlags_history (s : State) (e : Flags) : (s.setFlags e).history = s.history := rfl
@[simp] theorem State.setFlags_params (s : State) (e : Flags) : (s.setFlags e).params = s.params := rfl

@[simp] theorem State.setRun_a (s : State) (e : RunState) : (s.setRun e).a = s.a := rfl
@[simp] theorem State.setRun_x (s : State) (e : RunState) : (s.setRun e).x = s.x := rfl
@[simp] theorem State.setRun_y (s : State) (e : RunState) : (s.setRun e).y = s.y := rfl
@[simp] theorem State.setRun_sp (s : State) (e : RunState) : (s.setRun e).sp = s.sp := rfl
@[simp] theorem State.setRun_pc (s : State) (e : RunState) : (s.setRun e).pc = s.pc := rfl
@[simp] theorem State.setRun_flags (s : State) (e : RunState) : (s.setRun e).flags = s.flags := rfl
@[simp] theorem State.setRun_run (s : State) (e : RunState) : (s.setRun e).run = e := rfl
@[simp] theorem State.setRun_breakCount (s : State) (e : RunState) : (s.setRun e).breakCount = s.breakCount := rfl
@[simp] theorem State.setRun_mem (s : State) (e : RunState) : (s.setRun e).mem = s.mem := rfl
@[simp] theorem State.setRun_history (s : State) (e : RunState) : (s.setRun e).history = s.history := rfl
@[simp] theorem State.setRun_params (s : State) (e : RunState) : (s.setRun e).params = s.params := rfl

@[simp] theorem State.setBreakCount_a (s : State) (e : Nat) : (s.setBreakCount e).a = s.a := rfl
@[simp] theorem State.setBreakCount_x (s : State) (e : Nat) : (s.setBreakCount e).x = s.x := rfl
@[simp] theorem State.setBreakCount_y (s : State) (e : Nat) : (s.setBreakCount e).y = s.y := rfl
@[simp] theorem State.setBreakCount_sp (s : State) (e : Nat) : (s.setBreakCount e).sp = s.sp := rfl
@[simp] theorem State.setBreakCount_pc (s : State) (e : Nat) : (s.setBreakCount e).pc = s.pc := rfl
@[simp] theorem State.setBreakCount_flags (s : State) (e : Nat) : (s.setBreakCount e).flags = s.flags := rfl
@[simp] theorem State.setBreakCount_run (s : State) (e : Nat) : (s.setBreakCount e).run = s.run := rfl
@[simp] theorem State.setBreakCount_breakCount (s : State) (e : Nat) : (s.setBreakCount e).breakCount = e := rfl
@[simp] theorem State.setBreakCount_mem (s : State) (e : Nat) : (s.setBreakCount e).mem = s.mem := rfl
@[simp] theorem State.setBreakCount_history (s : State) (e : Nat) : (s.setBreakCount e).history = s.history := rfl
@[simp] theorem State.setBreakCount_params (s : State) (e : Nat) : (s.setBreakCount e).params = s.params := rfl

@[simp] theorem State.setMem_a (s : State) (e : Memory) : (s.setMem e).a = s.a := rfl
@[simp] theorem State.setMem_x (s : State) (e : Memory) : (s.setMem e).x = s.x := rfl
@[simp] theorem State.setMem_y (s : State) (e : Memory) : (s.setMem e).y = s.y := rfl
@[simp] theorem State.setMem_sp (s : State) (e : Memory) : (s.setMem e).sp = s.sp := rfl
@[simp] theorem State.setMem_pc (s : State) (e : Memory) : (s.setMem e).pc = s.pc := rfl
@[simp] theorem State.setMem_flags (s : State) (e : Memory) : (s.setMem e).flags = s.flags := rfl
@[simp] theorem State.setMem_run (s : State) (e : Memory) : (s.setMem e).run = s.run := rfl
@[simp] theorem State.setMem_breakCount (s : State) (e : Memory) : (s.setMem e).breakCount = s.breakCount := rfl
@[simp] theorem State.setMem_mem (s : State) (e : Memory) : (s.setMem e).mem = e := rfl
@[simp] theorem State.setMem_history (s : State) (e : Memory) : (s.setMem e).history = s.history := rfl
@[simp] theorem State.setMem_params (s : State) (e : Memory) : (s.setMem e).params = s.params := rfl

@[simp] theorem State.record_a (s : State) (e : Access) : (s.record e).a = s.a := rfl
@[simp] theorem State.record_x (s : State) (e : Access) : (s.record e).x = s.x := rfl
@[simp] theorem State.record_y (s : State) (e : Access) : (s.record e).y = s.y := rfl
@[simp] theorem State.record_sp (s : State) (e : Access) : (s.record e).sp = s.sp := rfl
@[simp] theorem State.record_pc (s : State) (e : Access) : (s.record e).pc = s.pc := rfl
@[simp] theorem State.record_flags (s : State) (e : Access) : (s.record e).flags = s.flags := rfl
@[simp] theorem State.record_run (s : State) (e : Access) : (s.record e).run = s.run := rfl
@[simp] theorem State.record_breakCount (s : State) (e : Access) : (s.record e).breakCount = s.breakCount := rfl
@[simp] theorem State.record_mem (s : State) (e : Access) : (s.record e).mem = s.mem := rfl
@[simp] theorem State.record_history (s : State) (e : Access) : (s.record e).history = e :: s.history := rfl
@[simp] theorem State.record_params (s : State) (e : Access) : (s.record e).params = s.params := rfl

end Sys2Proof.Machine
end

