-- ==== Sys2Proof/Laws/Ops.lean ====
section
/-! SUPPORT. What each shared operation over registers and memory does, said once: the lemmas the proofs cite
instead of unfolding it. -/

namespace Sys2Proof.Machine

/-! ### Reads and writes -/

@[simp] theorem State.memRead_fst (s : State) (addr : Word) : (s.memRead addr).1 = s.peek addr := rfl
@[simp] theorem State.memRead_snd (s : State) (addr : Word) :
    (s.memRead addr).2 = s.record (.read addr (s.peek addr)) := rfl

@[simp] theorem State.peek_setA (s : State) (e : Byte) (addr : Word) : (s.setA e).peek addr = s.peek addr := rfl
@[simp] theorem State.peek_setX (s : State) (e : Byte) (addr : Word) : (s.setX e).peek addr = s.peek addr := rfl
@[simp] theorem State.peek_setY (s : State) (e : Byte) (addr : Word) : (s.setY e).peek addr = s.peek addr := rfl
@[simp] theorem State.peek_setSp (s : State) (e : Byte) (addr : Word) : (s.setSp e).peek addr = s.peek addr := rfl
@[simp] theorem State.peek_setPc (s : State) (e : Word) (addr : Word) : (s.setPc e).peek addr = s.peek addr := rfl
@[simp] theorem State.peek_setFlags (s : State) (e : Flags) (addr : Word) : (s.setFlags e).peek addr = s.peek addr := rfl
@[simp] theorem State.peek_setRun (s : State) (e : RunState) (addr : Word) : (s.setRun e).peek addr = s.peek addr := rfl
@[simp] theorem State.peek_setBreakCount (s : State) (e : Nat) (addr : Word) : (s.setBreakCount e).peek addr = s.peek addr := rfl

/-- A read's record does not change what memory gives. -/
theorem State.peek_record_of_cell {s : State} {addr cell : Word} (e : Access)
    (h : deviceCell s.params.device addr = some cell) : (s.record e).peek addr = s.peek addr := by
  simp [State.peek, h]

theorem State.peek_record_of_ne_none {s : State} {addr : Word} (e : Access)
    (h : deviceCell s.params.device addr ≠ none) : (s.record e).peek addr = s.peek addr := by
  obtain ⟨cell, hc⟩ := Option.ne_none_iff_exists'.1 h
  exact State.peek_record_of_cell e hc

@[simp] theorem State.memWrite_a (s : State) (addr : Word) (v : Byte) :
    (s.memWrite addr v).a = s.a := rfl
@[simp] theorem State.memWrite_x (s : State) (addr : Word) (v : Byte) :
    (s.memWrite addr v).x = s.x := rfl
@[simp] theorem State.memWrite_y (s : State) (addr : Word) (v : Byte) :
    (s.memWrite addr v).y = s.y := rfl
@[simp] theorem State.memWrite_sp (s : State) (addr : Word) (v : Byte) :
    (s.memWrite addr v).sp = s.sp := rfl
@[simp] theorem State.memWrite_pc (s : State) (addr : Word) (v : Byte) :
    (s.memWrite addr v).pc = s.pc := rfl
@[simp] theorem State.memWrite_flags (s : State) (addr : Word) (v : Byte) :
    (s.memWrite addr v).flags = s.flags := rfl
@[simp] theorem State.memWrite_run (s : State) (addr : Word) (v : Byte) :
    (s.memWrite addr v).run = s.run := rfl
@[simp] theorem State.memWrite_breakCount (s : State) (addr : Word) (v : Byte) :
    (s.memWrite addr v).breakCount = s.breakCount := rfl
@[simp] theorem State.memWrite_mem (s : State) (addr : Word) (v : Byte) :
    (s.memWrite addr v).mem = memAfterPoke s.params.device s.mem addr v := rfl
@[simp] theorem State.memWrite_history (s : State) (addr : Word) (v : Byte) :
    (s.memWrite addr v).history = .write addr v :: s.history := rfl
@[simp] theorem State.memWrite_params (s : State) (addr : Word) (v : Byte) :
    (s.memWrite addr v).params = s.params := rfl

/-- What a read gives after a write, at an address with a cell. -/
theorem State.peek_memWrite_of_cell {s : State} {addr j cell : Word} {v : Byte} (h : Memory.wf s.mem)
    (hj : deviceCell s.params.device j = some cell) :
    (s.memWrite addr v).peek j = if deviceCell s.params.device addr = some cell then v else s.peek j := by
  rw [State.peek_eq_of_cell (s := s.memWrite addr v) hj, State.memWrite_mem, read_memAfterPoke h,
    State.peek_eq_of_cell hj]

/-- What memory holds at an address of another cell after a write. -/
theorem State.memByte_memWrite_of_ne {s : State} {addr j : Word} {v : Byte} (h : Memory.wf s.mem)
    (hj : deviceCell s.params.device j ≠ deviceCell s.params.device addr) :
    (s.memWrite addr v).memByte j = s.memByte j := by
  simp only [State.memByte, State.memWrite_params, State.memWrite_mem]
  cases hc : deviceCell s.params.device j with
  | none => rfl
  | some cell =>
    rw [hc] at hj
    simp [read_memAfterPoke h, Ne.symm hj]

theorem State.wf_memWrite {s : State} {addr : Word} {v : Byte} (h : Memory.wf s.mem) :
    Memory.wf (s.memWrite addr v).mem := wf_memAfterPoke h

/-! ### The stack -/

/-- A pushed byte goes to the stack address, and SP steps down. -/
theorem State.push_eq (s : State) (v : Byte) :
    s.push v = (s.memWrite (stackAddr s.sp) v).setSp (s.sp - 1) := rfl

@[simp] theorem State.push_a (s : State) (v : Byte) : (s.push v).a = s.a := rfl
@[simp] theorem State.push_x (s : State) (v : Byte) : (s.push v).x = s.x := rfl
@[simp] theorem State.push_y (s : State) (v : Byte) : (s.push v).y = s.y := rfl
@[simp] theorem State.push_sp (s : State) (v : Byte) : (s.push v).sp = s.sp - 1 := rfl
@[simp] theorem State.push_pc (s : State) (v : Byte) : (s.push v).pc = s.pc := rfl
@[simp] theorem State.push_flags (s : State) (v : Byte) : (s.push v).flags = s.flags := rfl
@[simp] theorem State.push_run (s : State) (v : Byte) : (s.push v).run = s.run := rfl
@[simp] theorem State.push_breakCount (s : State) (v : Byte) : (s.push v).breakCount = s.breakCount := rfl
@[simp] theorem State.push_mem (s : State) (v : Byte) : (s.push v).mem = memAfterPoke s.params.device s.mem (stackAddr s.sp) v := rfl
@[simp] theorem State.push_history (s : State) (v : Byte) : (s.push v).history = .write (stackAddr s.sp) v :: s.history := rfl
@[simp] theorem State.push_params (s : State) (v : Byte) : (s.push v).params = s.params := rfl

@[simp] theorem State.pull_fst (s : State) : s.pull.1 = s.peek (stackAddr (s.sp + 1)) := rfl
@[simp] theorem State.pull_a (s : State) : s.pull.2.a = s.a := rfl
@[simp] theorem State.pull_x (s : State) : s.pull.2.x = s.x := rfl
@[simp] theorem State.pull_y (s : State) : s.pull.2.y = s.y := rfl
@[simp] theorem State.pull_sp (s : State) : s.pull.2.sp = s.sp + 1 := rfl
@[simp] theorem State.pull_pc (s : State) : s.pull.2.pc = s.pc := rfl
@[simp] theorem State.pull_flags (s : State) : s.pull.2.flags = s.flags := rfl
@[simp] theorem State.pull_run (s : State) : s.pull.2.run = s.run := rfl
@[simp] theorem State.pull_breakCount (s : State) : s.pull.2.breakCount = s.breakCount := rfl
@[simp] theorem State.pull_mem (s : State) : s.pull.2.mem = s.mem := rfl
@[simp] theorem State.pull_history (s : State) : s.pull.2.history = .read (stackAddr (s.sp + 1)) (s.peek (stackAddr (s.sp + 1))) :: s.history := rfl
@[simp] theorem State.pull_params (s : State) : s.pull.2.params = s.params := rfl

/-- The stack address in the spelling of R26. -/
theorem stackAddr_eq (sp : Byte) : stackAddr sp = 0x0100 + sp.setWidth 16 := rfl

theorem stackAddr_toNat (sp : Byte) : (stackAddr sp).toNat = 256 + sp.toNat := by
  have h : (stackBase : Word).toNat = 256 := rfl
  simp only [stackAddr, zext16, BitVec.toNat_add, BitVec.toNat_setWidth, h]
  omega

/-- Distinct stack pointers name distinct addresses. -/
theorem stackAddr_inj {p q : Byte} : stackAddr p = stackAddr q ↔ p = q := by
  constructor
  · intro h
    have := congrArg BitVec.toNat h
    rw [stackAddr_toNat, stackAddr_toNat] at this
    exact BitVec.eq_of_toNat_eq (by omega)
  · rintro rfl; rfl

/-- Up to 256 pushes in a row from one SP go to distinct addresses (R50; log 20). -/
theorem stackAddr_sub_ofNat_inj (sp : Byte) {i j : Nat} (hi : i < 256) (hj : j < 256) :
    stackAddr (sp - BitVec.ofNat 8 i) = stackAddr (sp - BitVec.ofNat 8 j) ↔ i = j := by
  rw [stackAddr_inj]
  constructor
  · intro h
    have := congrArg BitVec.toNat h
    simp only [BitVec.toNat_sub, BitVec.toNat_ofNat] at this
    omega
  · rintro rfl; rfl

/-- The 257th push goes to the address of the first (R50; log 20). -/
theorem stackAddr_sub_256 (sp : Byte) : stackAddr (sp - BitVec.ofNat 8 256) = stackAddr sp := by simp

theorem stackAddr_in_page (sp : Byte) : 0x0100 ≤ (stackAddr sp).toNat ∧ (stackAddr sp).toNat ≤ 0x01FF := by
  rw [stackAddr_toNat]; omega

/-! ### The bytes of a word -/

theorem hiLo_bytes (w : Word) : hiLo (hiByte w) (loByte w) = w := by
  simp only [hiLo, hiByte, loByte]
  ext i hi
  simp only [BitVec.getElem_append, BitVec.getElem_extractLsb']
  split
  · simp [← BitVec.getLsbD_eq_getElem]
  · simp only [← BitVec.getLsbD_eq_getElem]
    congr 1
    omega

theorem loByte_hiLo (h l : Byte) : loByte (hiLo h l) = l := by
  ext i hi
  simp only [loByte, BitVec.getElem_extractLsb', Nat.zero_add]
  exact (BitVec.getLsbD_append (x := h) (y := l)).trans (by simp [*, BitVec.getLsbD_eq_getElem])

theorem hiByte_hiLo (h l : Byte) : hiByte (hiLo h l) = h := by
  ext i hi
  simp only [hiByte, BitVec.getElem_extractLsb']
  exact (BitVec.getLsbD_append (x := h) (y := l)).trans (by simp [*, BitVec.getLsbD_eq_getElem])

theorem hiLo_toNat (h l : Byte) : (hiLo h l).toNat = h.toNat * 256 + l.toNat := by
  refine (BitVec.toNat_append h l).trans ?_
  rw [Nat.shiftLeft_eq, Nat.mul_comm, ← Nat.two_pow_add_eq_or_of_lt l.isLt, Nat.mul_comm]

/-- The next address stays in the page unless the low byte is 0xFF. -/
theorem hiLo_succ {h l : Byte} (hl : l ≠ 0xFF) : hiLo h l + 1 = hiLo h (l + 1) := by
  have hl' : l.toNat ≠ 255 := fun e => hl (BitVec.eq_of_toNat_eq e)
  apply BitVec.eq_of_toNat_eq
  rw [BitVec.toNat_add, hiLo_toNat, hiLo_toNat, BitVec.toNat_add]
  have hh := h.isLt
  have hl := l.isLt
  have h8 : (1 : Byte).toNat = 1 := rfl
  have h16 : (1 : Word).toNat = 1 := rfl
  rw [h8, h16]
  omega

/-- The page of an address with another low byte (R114). -/
theorem page_or_low (p : Word) (l : Byte) : (p &&& 0xFF00) ||| zext16 l = hiLo (hiByte p) l := by
  apply BitVec.eq_of_getLsbD_eq
  intro i hi
  have happ : (hiLo (hiByte p) l).getLsbD i = if i < 8 then l.getLsbD i else (hiByte p).getLsbD (i - 8) :=
    BitVec.getLsbD_append
  rw [happ]
  simp only [zext16, hiByte, BitVec.getLsbD_or, BitVec.getLsbD_and, BitVec.getLsbD_setWidth,
    BitVec.getLsbD_extractLsb']
  interval_cases i <;> simp

theorem operandWord_bytes (w : Word) : operandWord (loByte w) (hiByte w) = w := hiLo_bytes w

/-! ### The instruction stream -/

@[simp] theorem State.nextByte_fst (s : State) : s.nextByte.1 = s.peek s.pc := rfl
@[simp] theorem State.nextByte_snd (s : State) :
    s.nextByte.2 = (s.record (.read s.pc (s.peek s.pc))).setPc (s.pc + 1) := rfl

@[simp] theorem State.fetchBytes_zero (s : State) : State.fetchBytes 0 s = ([], s) := rfl
theorem State.fetchBytes_succ (n : Nat) (s : State) :
    State.fetchBytes (n + 1) s =
      (s.peek s.pc :: (State.fetchBytes n s.nextByte.2).1, (State.fetchBytes n s.nextByte.2).2) := rfl

@[simp] theorem State.fetchBytes_length (n : Nat) (s : State) : (State.fetchBytes n s).1.length = n := by
  induction n generalizing s with
  | zero => rfl
  | succ n ih => simp [State.fetchBytes_succ, ih]

/-- A fetch moves PC and records reads; it touches nothing else. -/
theorem State.fetchBytes_snd_eq (n : Nat) (s : State) :
    (State.fetchBytes n s).2 = { s with
      pc := s.pc + BitVec.ofNat 16 n, history := (State.fetchBytes n s).2.history } := by
  induction n generalizing s with
  | zero => simp
  | succ n ih =>
    rw [State.fetchBytes_succ]
    dsimp only
    rw [ih]
    simp only [State.nextByte_snd, State.setPc, State.record, State.mk.injEq, true_and, and_true]
    rw [BitVec.add_assoc]
    congr 1
    apply BitVec.eq_of_toNat_eq
    simp
    omega

/-! ### Words on the stack, the entry sequence and the return -/

theorem State.pushWord_eq (s : State) (w : Word) :
    s.pushWord w = (s.push (hiByte w)).push (loByte w) := rfl
@[simp] theorem State.pushWord_a (s : State) (w : Word) :
    (s.pushWord w).a = s.a := by
  simp only [State.pushWord_eq, State.push_a]
@[simp] theorem State.pushWord_x (s : State) (w : Word) :
    (s.pushWord w).x = s.x := by
  simp only [State.pushWord_eq, State.push_x]
@[simp] theorem State.pushWord_y (s : State) (w : Word) :
    (s.pushWord w).y = s.y := by
  simp only [State.pushWord_eq, State.push_y]
@[simp] theorem State.pushWord_sp (s : State) (w : Word) :
    (s.pushWord w).sp = s.sp - 1 - 1 := by
  simp only [State.pushWord_eq, State.push_sp]
@[simp] theorem State.pushWord_pc (s : State) (w : Word) :
    (s.pushWord w).pc = s.pc := by
  simp only [State.pushWord_eq, State.push_pc]
@[simp] theorem State.pushWord_flags (s : State) (w : Word) :
    (s.pushWord w).flags = s.flags := by
  simp only [State.pushWord_eq, State.push_flags]
@[simp] theorem State.pushWord_run (s : State) (w : Word) :
    (s.pushWord w).run = s.run := by
  simp only [State.pushWord_eq, State.push_run]
@[simp] theorem State.pushWord_breakCount (s : State) (w : Word) :
    (s.pushWord w).breakCount = s.breakCount := by
  simp only [State.pushWord_eq, State.push_breakCount]
@[simp] theorem State.pushWord_mem (s : State) (w : Word) :
    (s.pushWord w).mem = memAfterPoke s.params.device (memAfterPoke s.params.device s.mem (stackAddr s.sp) (hiByte w))
      (stackAddr (s.sp - 1)) (loByte w) := by
  simp only [State.pushWord_eq, State.push_mem, State.push_sp, State.push_params]
@[simp] theorem State.pushWord_history (s : State) (w : Word) :
    (s.pushWord w).history = .write (stackAddr (s.sp - 1)) (loByte w) :: .write (stackAddr s.sp) (hiByte w) :: s.history := by
  simp only [State.pushWord_eq, State.push_history, State.push_sp]
@[simp] theorem State.pushWord_params (s : State) (w : Word) :
    (s.pushWord w).params = s.params := by
  simp only [State.pushWord_eq, State.push_params]

theorem State.pullWord_snd (s : State) : s.pullWord.2 = s.pull.2.pull.2 := rfl
@[simp] theorem State.pullWord_fst (s : State) :
    s.pullWord.1 = hiLo (s.pull.2.peek (stackAddr (s.sp + 1 + 1))) (s.peek (stackAddr (s.sp + 1))) := rfl
@[simp] theorem State.pullWord_a (s : State) : s.pullWord.2.a = s.a := by
  simp only [State.pullWord_snd, State.pull_a]
@[simp] theorem State.pullWord_x (s : State) : s.pullWord.2.x = s.x := by
  simp only [State.pullWord_snd, State.pull_x]
@[simp] theorem State.pullWord_y (s : State) : s.pullWord.2.y = s.y := by
  simp only [State.pullWord_snd, State.pull_y]
@[simp] theorem State.pullWord_sp (s : State) : s.pullWord.2.sp = s.sp + 1 + 1 := by
  simp only [State.pullWord_snd, State.pull_sp]
@[simp] theorem State.pullWord_pc (s : State) : s.pullWord.2.pc = s.pc := by
  simp only [State.pullWord_snd, State.pull_pc]
@[simp] theorem State.pullWord_flags (s : State) : s.pullWord.2.flags = s.flags := by
  simp only [State.pullWord_snd, State.pull_flags]
@[simp] theorem State.pullWord_run (s : State) : s.pullWord.2.run = s.run := by
  simp only [State.pullWord_snd, State.pull_run]
@[simp] theorem State.pullWord_breakCount (s : State) : s.pullWord.2.breakCount = s.breakCount := by
  simp only [State.pullWord_snd, State.pull_breakCount]
@[simp] theorem State.pullWord_mem (s : State) : s.pullWord.2.mem = s.mem := by
  simp only [State.pullWord_snd, State.pull_mem]
@[simp] theorem State.pullWord_params (s : State) : s.pullWord.2.params = s.params := by
  simp only [State.pullWord_snd, State.pull_params]

/-- The entry sequence over its two parts: the vector read, and the three pushes after it (R302). -/
theorem State.interruptEntry_eq (s : State) (vector : Word) :
    s.interruptEntry vector =
      ((((s.memRead16 vector).2.pushWord s.pc).push s.flags.pushed).setPc (s.memRead16 vector).1).setFlags
        (s.flags.setI true) := rfl

/-- The vector read changes the history only. -/
theorem State.memRead16_snd (s : State) (addr : Word) :
    (s.memRead16 addr).2 = (s.memRead addr).2.record (.read (addr + 1) ((s.memRead addr).2.peek (addr + 1))) := rfl

@[simp] theorem State.interruptEntry_a (s : State) (vector : Word) :
    (s.interruptEntry vector).a = s.a := by
  simp [State.interruptEntry_eq, State.memRead16_snd]
@[simp] theorem State.interruptEntry_x (s : State) (vector : Word) :
    (s.interruptEntry vector).x = s.x := by
  simp [State.interruptEntry_eq, State.memRead16_snd]
@[simp] theorem State.interruptEntry_y (s : State) (vector : Word) :
    (s.interruptEntry vector).y = s.y := by
  simp [State.interruptEntry_eq, State.memRead16_snd]
@[simp] theorem State.interruptEntry_sp (s : State) (vector : Word) :
    (s.interruptEntry vector).sp = s.sp - 1 - 1 - 1 := by
  simp [State.interruptEntry_eq, State.memRead16_snd]
@[simp] theorem State.interruptEntry_run (s : State) (vector : Word) :
    (s.interruptEntry vector).run = s.run := by
  simp [State.interruptEntry_eq, State.memRead16_snd]
@[simp] theorem State.interruptEntry_breakCount (s : State) (vector : Word) :
    (s.interruptEntry vector).breakCount = s.breakCount := by
  simp [State.interruptEntry_eq, State.memRead16_snd]
@[simp] theorem State.interruptEntry_params (s : State) (vector : Word) :
    (s.interruptEntry vector).params = s.params := by
  simp [State.interruptEntry_eq, State.memRead16_snd]
@[simp] theorem State.interruptEntry_pc (s : State) (vector : Word) :
    (s.interruptEntry vector).pc = (s.memRead16 vector).1 := rfl
@[simp] theorem State.interruptEntry_flags (s : State) (vector : Word) :
    (s.interruptEntry vector).flags = s.flags.setI true := rfl

/-- The return over its two parts: the status pull, and the PC pull after it (R211). -/
theorem State.returnFromInterrupt_eq (s : State) :
    s.returnFromInterrupt =
      (s.pull.2.setFlags (Flags.decode s.pull.1)).pullWord.2.setPc
        (s.pull.2.setFlags (Flags.decode s.pull.1)).pullWord.1 := rfl

@[simp] theorem State.returnFromInterrupt_a (s : State) : s.returnFromInterrupt.a = s.a := by
  simp [State.returnFromInterrupt_eq]
@[simp] theorem State.returnFromInterrupt_x (s : State) : s.returnFromInterrupt.x = s.x := by
  simp [State.returnFromInterrupt_eq]
@[simp] theorem State.returnFromInterrupt_y (s : State) : s.returnFromInterrupt.y = s.y := by
  simp [State.returnFromInterrupt_eq]
@[simp] theorem State.returnFromInterrupt_sp (s : State) : s.returnFromInterrupt.sp = s.sp + 1 + 1 + 1 := by
  simp [State.returnFromInterrupt_eq]
@[simp] theorem State.returnFromInterrupt_run (s : State) : s.returnFromInterrupt.run = s.run := by
  simp [State.returnFromInterrupt_eq]
@[simp] theorem State.returnFromInterrupt_breakCount (s : State) : s.returnFromInterrupt.breakCount = s.breakCount := by
  simp [State.returnFromInterrupt_eq]
@[simp] theorem State.returnFromInterrupt_mem (s : State) : s.returnFromInterrupt.mem = s.mem := by
  simp [State.returnFromInterrupt_eq]
@[simp] theorem State.returnFromInterrupt_params (s : State) : s.returnFromInterrupt.params = s.params := by
  simp [State.returnFromInterrupt_eq]
@[simp] theorem State.returnFromInterrupt_flags (s : State) :
    s.returnFromInterrupt.flags = Flags.decode (s.peek (stackAddr (s.sp + 1))) := rfl

end Sys2Proof.Machine
end

