-- ==== Sys2Proof/Laws/Decode.lean ====
section
/-! SUPPORT. The table row by row: what each entry's instructions encode to, and where the sentinel stands. -/

namespace Sys2Proof

/-- The entry is the sentinel. -/
def Entry.isUnimpl : Entry → Bool
  | .unimpl => true
  | .op0 _ | .op1 _ | .op2 _ => false

theorem Entry.eq_unimpl {e : Entry} (h : e.isUnimpl = true) : e = .unimpl := by
  cases e <;> first | rfl | cases h

/-- The sentinel entries of the table are those of the bytes of R65. -/
theorem tableEntry_isUnimpl : ∀ opcode : Byte, (tableEntry opcode).isUnimpl = isSentinel opcode := by
  decide

theorem tableEntry_of_sentinel {opcode : Byte} (h : isSentinel opcode = true) :
    tableEntry opcode = .unimpl :=
  Entry.eq_unimpl ((tableEntry_isUnimpl opcode).trans h)

/-- The instructions of an entry at `opcode` are well formed and encode to that opcode and their operand
bytes. -/
def Entry.encodesAt (opcode : Byte) : Entry → Prop
  | .op0 i => encode i = [opcode] ∧ WellFormed i = true
  | .op1 mk => ∀ b, encode (mk b) = [opcode, b] ∧ WellFormed (mk b) = true
  | .op2 mk => ∀ w, encode (mk w) = encodeWord opcode w ∧ WellFormed (mk w) = true
  | .unimpl => True

/-- The same of a list of entries, from an opcode on. -/
def encodeFrom : Nat → List Entry → Prop
  | _, [] => True
  | n, e :: es => e.encodesAt (BitVec.ofNat 8 n) ∧ encodeFrom (n + 1) es

theorem encodeFrom_getD {n : Nat} {es : List Entry} (h : encodeFrom n es) (k : Nat) :
    (es.getD k .unimpl).encodesAt (BitVec.ofNat 8 (n + k)) := by
  induction es generalizing n k with
  | nil => trivial
  | cons e es ih =>
    cases k with
    | zero => exact h.1
    | succ k =>
      have := ih h.2 k
      rw [show n + 1 + k = n + (k + 1) by omega] at this
      exact this

theorem encodeFrom_append {n : Nat} {es fs : List Entry} (h : encodeFrom n es)
    (k : encodeFrom (n + es.length) fs) : encodeFrom n (es ++ fs) := by
  induction es generalizing n with
  | nil => exact k
  | cons e es ih =>
    exact ⟨h.1, ih h.2 (by rw [List.length_cons] at k; rwa [show n + 1 + es.length = n + (es.length + 1) by omega])⟩

theorem encodeFrom_table0 : encodeFrom 0 table0 := by
  repeat' first | exact trivial | exact ⟨rfl, rfl⟩ | exact fun _ => ⟨rfl, rfl⟩ | constructor

theorem encodeFrom_table1 : encodeFrom 16 table1 := by
  repeat' first | exact trivial | exact ⟨rfl, rfl⟩ | exact fun _ => ⟨rfl, rfl⟩ | constructor

theorem encodeFrom_table2 : encodeFrom 32 table2 := by
  repeat' first | exact trivial | exact ⟨rfl, rfl⟩ | exact fun _ => ⟨rfl, rfl⟩ | constructor

theorem encodeFrom_table3 : encodeFrom 48 table3 := by
  repeat' first | exact trivial | exact ⟨rfl, rfl⟩ | exact fun _ => ⟨rfl, rfl⟩ | constructor

theorem encodeFrom_table4 : encodeFrom 64 table4 := by
  repeat' first | exact trivial | exact ⟨rfl, rfl⟩ | exact fun _ => ⟨rfl, rfl⟩ | constructor

theorem encodeFrom_table5 : encodeFrom 80 table5 := by
  repeat' first | exact trivial | exact ⟨rfl, rfl⟩ | exact fun _ => ⟨rfl, rfl⟩ | constructor

theorem encodeFrom_table6 : encodeFrom 96 table6 := by
  repeat' first | exact trivial | exact ⟨rfl, rfl⟩ | exact fun _ => ⟨rfl, rfl⟩ | constructor

theorem encodeFrom_table7 : encodeFrom 112 table7 := by
  repeat' first | exact trivial | exact ⟨rfl, rfl⟩ | exact fun _ => ⟨rfl, rfl⟩ | constructor

theorem encodeFrom_table8 : encodeFrom 128 table8 := by
  repeat' first | exact trivial | exact ⟨rfl, rfl⟩ | exact fun _ => ⟨rfl, rfl⟩ | constructor

theorem encodeFrom_table9 : encodeFrom 144 table9 := by
  repeat' first | exact trivial | exact ⟨rfl, rfl⟩ | exact fun _ => ⟨rfl, rfl⟩ | constructor

theorem encodeFrom_tableA : encodeFrom 160 tableA := by
  repeat' first | exact trivial | exact ⟨rfl, rfl⟩ | exact fun _ => ⟨rfl, rfl⟩ | constructor

theorem encodeFrom_tableB : encodeFrom 176 tableB := by
  repeat' first | exact trivial | exact ⟨rfl, rfl⟩ | exact fun _ => ⟨rfl, rfl⟩ | constructor

theorem encodeFrom_tableC : encodeFrom 192 tableC := by
  repeat' first | exact trivial | exact ⟨rfl, rfl⟩ | exact fun _ => ⟨rfl, rfl⟩ | constructor

theorem encodeFrom_tableD : encodeFrom 208 tableD := by
  repeat' first | exact trivial | exact ⟨rfl, rfl⟩ | exact fun _ => ⟨rfl, rfl⟩ | constructor

theorem encodeFrom_tableE : encodeFrom 224 tableE := by
  repeat' first | exact trivial | exact ⟨rfl, rfl⟩ | exact fun _ => ⟨rfl, rfl⟩ | constructor

theorem encodeFrom_tableF : encodeFrom 240 tableF := by
  repeat' first | exact trivial | exact ⟨rfl, rfl⟩ | exact fun _ => ⟨rfl, rfl⟩ | constructor

theorem encodeFrom_instructionTable : encodeFrom 0 instructionTable := by
  have l0 : table0.length = 16 := rfl
  have l1 : table1.length = 16 := rfl
  have l2 : table2.length = 16 := rfl
  have l3 : table3.length = 16 := rfl
  have l4 : table4.length = 16 := rfl
  have l5 : table5.length = 16 := rfl
  have l6 : table6.length = 16 := rfl
  have l7 : table7.length = 16 := rfl
  have l8 : table8.length = 16 := rfl
  have l9 : table9.length = 16 := rfl
  have lA : tableA.length = 16 := rfl
  have lB : tableB.length = 16 := rfl
  have lC : tableC.length = 16 := rfl
  have lD : tableD.length = 16 := rfl
  have lE : tableE.length = 16 := rfl
  unfold instructionTable
  repeat' apply encodeFrom_append
  all_goals try simp only [List.length_append, l0, l1, l2, l3, l4, l5, l6, l7, l8, l9, lA, lB, lC, lD, lE, Nat.reduceAdd]
  all_goals first
    | exact encodeFrom_table0
    | exact encodeFrom_table1
    | exact encodeFrom_table2
    | exact encodeFrom_table3
    | exact encodeFrom_table4
    | exact encodeFrom_table5
    | exact encodeFrom_table6
    | exact encodeFrom_table7
    | exact encodeFrom_table8
    | exact encodeFrom_table9
    | exact encodeFrom_tableA
    | exact encodeFrom_tableB
    | exact encodeFrom_tableC
    | exact encodeFrom_tableD
    | exact encodeFrom_tableE
    | exact encodeFrom_tableF

/-- The two tables of R64 agree: what the grid holds at an opcode, the list by mnemonic encodes to it. -/
theorem tableEntry_encodesAt (opcode : Byte) : (tableEntry opcode).encodesAt opcode := by
  have h := encodeFrom_getD encodeFrom_instructionTable opcode.toNat
  rwa [Nat.zero_add, BitVec.ofNat_toNat, BitVec.setWidth_eq] at h

end Sys2Proof
end

