-- ==== Sys2Proof/Laws/Operands.lean ====
section
/-! SUPPORT. What resolution, the operand accesses and the four shapes of an instruction do, said once. -/

namespace Sys2Proof.Machine

/-! ### The two OPEN parameters, in the form the rules write -/

/-- R114's form: page wrap keeps the pointer's high byte, otherwise the next address. -/
theorem indHighAddr_eq (pageWrap : Bool) (p : Word) :
    indHighAddr pageWrap p =
      if pageWrap then (p &&& 0xFF00) ||| zext16 (loByte p + 1) else p + 1 := by
  unfold indHighAddr
  cases pageWrap
  · simp
  · by_cases h : loByte p = 0xFF
    · simp [h]
    · simp only [beq_iff_eq, Bool.and_true, if_neg h, if_true]
      rw [page_or_low, ← hiLo_succ h, hiLo_bytes]

/-- R115's and R116's form: wrap stays in the zero page, otherwise the next address. -/
theorem zpHighAddr_eq (zpWrap : Bool) (p : Byte) :
    zpHighAddr zpWrap p = if zpWrap then zext16 (p + 1) else zext16 p + 1 := by
  cases zpWrap
  · simp [zpHighAddr]
  · revert p; decide

/-! ### Resolution -/

@[simp] theorem State.readPair_fst (s : State) (l h : Word) :
    (s.readPair l h).1 = hiLo ((s.record (.read l (s.peek l))).peek h) (s.peek l) := rfl
@[simp] theorem State.readPair_snd (s : State) (l h : Word) :
    (s.readPair l h).2 = (s.record (.read l (s.peek l))).record
      (.read h ((s.record (.read l (s.peek l))).peek h)) := rfl

/-- The addresses of the pointer a mode reads, low byte first; none for the other modes. -/
def pointerAddrs (s : State) : Mode → Option (Word × Word)
  | .ind p => some (p, indHighAddr s.params.jmpIndPageWrap p)
  | .indx a => some (zext16 (a + s.x), zpHighAddr s.params.zpPtrWrap (a + s.x))
  | .indy a => some (zext16 a, zpHighAddr s.params.zpPtrWrap a)
  | .imp | .acc | .imm _ | .rel _ | .zp _ | .zpx _ | .zpy _ | .abs _ | .absx _ | .absy _ => none

/-- Resolution leaves the state as it is, or after the two reads of the mode's pointer. -/
theorem State.resolve_snd (s : State) (m : Mode) :
    (s.resolve m).2 =
      match pointerAddrs s m with
      | none => s
      | some (l, h) => (s.readPair l h).2 := by
  cases m <;> rfl

theorem State.resolve_cases (s : State) (m : Mode) :
    (s.resolve m).2 = s ∨ ∃ l h, (s.resolve m).2 = (s.readPair l h).2 := by
  rw [State.resolve_snd]
  cases pointerAddrs s m with
  | none => exact .inl rfl
  | some p => exact .inr ⟨p.1, p.2, rfl⟩

/-- `OpRead` yields its byte from the same state, or through one read of a memory operand. -/
theorem State.opRead_cases {s t : State} {o : Operand} {v : Byte} (h : s.opRead o = some (v, t)) :
    (t = s ∧ ∀ ea, o ≠ .mem ea) ∨ ∃ ea, o = .mem ea ∧ v = s.peek ea ∧ t = (s.memRead ea).2 := by
  cases o with
  | mem ea =>
    cases Option.some.inj h
    exact .inr ⟨ea, rfl, rfl, rfl⟩
  | acc => exact .inl ⟨(congrArg Prod.snd (Option.some.inj h)).symm, nofun⟩
  | imm => exact .inl ⟨(congrArg Prod.snd (Option.some.inj h)).symm, nofun⟩
  | rel => exact .inl ⟨(congrArg Prod.snd (Option.some.inj h)).symm, nofun⟩
  | none => cases h
  | ptr => cases h

/-- `OpWrite` writes A, or memory at the operand's address. -/
theorem State.opWrite_cases {s t : State} {o : Operand} {v : Byte} (h : s.opWrite o v = some t) :
    (o = .acc ∧ t = s.setA v) ∨ ∃ ea, o = .mem ea ∧ t = s.memWrite ea v := by
  cases o <;> simp [State.opWrite] at h ⊢
  all_goals exact h.symm

/-! ### The four shapes -/

theorem reading_next {m : Mode} {s t : State} {k : Byte → State → State} (h : reading m s k = .next t) :
    ∃ v s1, s.readOperand m = some (v, s1) ∧ t = k v s1 := by
  unfold reading at h
  split at h
  · rename_i v s1 hv
    exact ⟨v, s1, hv, by injection h with h; exact h.symm⟩
  · cases h

theorem storing_next {m : Mode} {s t : State} {v : Byte} (h : storing m v s = .next t) :
    (s.resolve m).2.opWrite (s.resolve m).1 v = some t := by
  unfold storing at h
  split at h
  · rename_i s1 hs
    injection h with h
    rw [hs, h]
  · cases h

theorem modifying_next {m : Mode} {s t : State} {f : Byte → Flags → Byte} {g : Byte → Flags → Flags}
    (h : modifying m s f g = .next t) :
    ∃ v s1 s2, s.readOperand m = some (v, s1) ∧ s1.opWrite (s.resolve m).1 (f v s.flags) = some s2 ∧
      t = s2.setFlags (g v s.flags) := by
  unfold modifying at h
  split at h
  · cases h
  · rename_i v s1 hv
    split at h
    · cases h
    · rename_i s2 hs
      exact ⟨v, s1, s2, hv, hs, by injection h with h; exact h.symm⟩

theorem targeting_next {m : Mode} {s t : State} {k : Word → State → State} (h : targeting m s k = .next t) :
    ∃ w, opTarget (s.resolve m).1 = some w ∧ t = k w (s.resolve m).2 := by
  unfold targeting at h
  split at h
  · rename_i w hw
    exact ⟨w, hw, by injection h with h; exact h.symm⟩
  · cases h

/-! ### Reading an operand touches the history only -/

theorem State.resolve_snd_eq (s : State) (m : Mode) :
    (s.resolve m).2 = { s with history := (s.resolve m).2.history } := by
  rcases State.resolve_cases s m with h | ⟨l, r, h⟩
  · rw [h]
  · rw [h]; rfl

theorem State.readOperand_snd_eq {s t : State} {m : Mode} {v : Byte} (h : s.readOperand m = some (v, t)) :
    t = { s with history := t.history } := by
  rcases State.opRead_cases h with ⟨rfl, -⟩ | ⟨ea, -, -, rfl⟩
  · exact State.resolve_snd_eq s m
  · rw [State.memRead_snd]
    generalize (s.resolve m).2.peek ea = v
    rw [State.resolve_snd_eq s m]
    rfl

end Sys2Proof.Machine
end

