-- ==== Sys2Proof/Laws/Exec.lean ====
section
/-! SUPPORT. `exec` by mnemonic and mode, and what any instruction can do to memory, the history, the break
count and the parameters, said once: it makes progress by reads, writes and register updates. -/

namespace Sys2Proof.Machine

/-- The meaning of a mnemonic closed over a mode (30_encoding.md R63), for the proofs: `exec` goes through it
for every instruction but the sentinel. -/
def meaning (n : Mnemonic) (m : Mode) (s : State) : Result :=
  match n with
  | .adc => semAdc m s
  | .sbc => semSbc m s
  | .and => semAnd m s
  | .ora => semOra m s
  | .eor => semEor m s
  | .asl => semAsl m s
  | .lsr => semLsr m s
  | .rol => semRol m s
  | .ror => semRor m s
  | .inc => semInc m s
  | .dec => semDec m s
  | .inx => execInx s
  | .iny => execIny s
  | .dex => execDex s
  | .dey => execDey s
  | .cmp => semCmp m s
  | .cpx => semCpx m s
  | .cpy => semCpy m s
  | .bit => semBit m s
  | .bcc => reading m s fun v t => if !s.flags.c then t.setPc (t.pc + sext16 v) else t
  | .bcs => reading m s fun v t => if s.flags.c then t.setPc (t.pc + sext16 v) else t
  | .beq => reading m s fun v t => if s.flags.z then t.setPc (t.pc + sext16 v) else t
  | .bne => reading m s fun v t => if !s.flags.z then t.setPc (t.pc + sext16 v) else t
  | .bmi => reading m s fun v t => if s.flags.n then t.setPc (t.pc + sext16 v) else t
  | .bpl => reading m s fun v t => if !s.flags.n then t.setPc (t.pc + sext16 v) else t
  | .bvc => reading m s fun v t => if !s.flags.v then t.setPc (t.pc + sext16 v) else t
  | .bvs => reading m s fun v t => if s.flags.v then t.setPc (t.pc + sext16 v) else t
  | .pha => execPha s
  | .php => execPhp s
  | .pla => execPla s
  | .plp => execPlp s
  | .tsx => execTsx s
  | .txs => execTxs s
  | .tax => execTax s
  | .tay => execTay s
  | .txa => execTxa s
  | .tya => execTya s
  | .jmp => semJmp m s
  | .jsr => targeting m s fun t s' => (s'.pushWord (s'.pc - 1)).setPc t
  | .rts => execRts s
  | .brk => execBrk s
  | .rti => execRti s
  | .clc => execClc s
  | .cld => execCld s
  | .cli => execCli s
  | .clv => execClv s
  | .sec => execSec s
  | .sed => execSed s
  | .sei => execSei s
  | .nop => execNop s
  | .lda => semLda m s
  | .ldx => semLdx m s
  | .ldy => semLdy m s
  | .sta => semSta m s
  | .stx => semStx m s
  | .sty => semSty m s
  | .unimplemented => .next s

theorem exec_eq_meaning {i : Instr} (h : i.mnemonic ≠ .unimplemented) (s : State) :
    exec i s = meaning i.mnemonic i.mode s := by
  cases i <;> first | rfl | exact absurd rfl h

/-- The sentinel is the one constructor with its mnemonic. -/
theorem Instr.eq_unimplemented {i : Instr} (h : i.mnemonic = .unimplemented) :
    ∃ opcode, i = .unimplemented opcode := by
  cases i <;> first | exact ⟨_, rfl⟩ | cases h

/-- What an instruction does to everything but the registers: reads and writes through the device, one after
the other, with register updates between them. -/
inductive Progress : State → State → Prop where
  | refl (s : State) : Progress s s
  | read {s t : State} (h : Progress s t) (addr : Word) :
      Progress s (t.record (.read addr (t.peek addr)))
  | write {s t : State} (h : Progress s t) (addr : Word) (v : Byte) : Progress s (t.memWrite addr v)
  | regs {s t u : State} (h : Progress s t) (hm : u.mem = t.mem) (hh : u.history = t.history)
      (hp : u.params = t.params) (hb : u.breakCount = t.breakCount) : Progress s u

namespace Progress

theorem trans {s t u : State} (h : Progress s t) (k : Progress t u) : Progress s u := by
  induction k with
  | refl => exact h
  | read _ addr ih => exact .read ih addr
  | write _ addr v ih => exact .write ih addr v
  | regs _ hm hh hp hb ih => exact .regs ih hm hh hp hb

theorem setA {s t : State} (h : Progress s t) (e : Byte) : Progress s (t.setA e) := .regs h rfl rfl rfl rfl
theorem setX {s t : State} (h : Progress s t) (e : Byte) : Progress s (t.setX e) := .regs h rfl rfl rfl rfl
theorem setY {s t : State} (h : Progress s t) (e : Byte) : Progress s (t.setY e) := .regs h rfl rfl rfl rfl
theorem setSp {s t : State} (h : Progress s t) (e : Byte) : Progress s (t.setSp e) := .regs h rfl rfl rfl rfl
theorem setPc {s t : State} (h : Progress s t) (e : Word) : Progress s (t.setPc e) := .regs h rfl rfl rfl rfl
theorem setFlags {s t : State} (h : Progress s t) (e : Flags) : Progress s (t.setFlags e) := .regs h rfl rfl rfl rfl
theorem setRun {s t : State} (h : Progress s t) (e : RunState) : Progress s (t.setRun e) := .regs h rfl rfl rfl rfl

theorem loadA {s t : State} (h : Progress s t) (v : Byte) : Progress s (t.loadA v) := (h.setA v).setFlags _
theorem loadX {s t : State} (h : Progress s t) (v : Byte) : Progress s (t.loadX v) := (h.setX v).setFlags _
theorem loadY {s t : State} (h : Progress s t) (v : Byte) : Progress s (t.loadY v) := (h.setY v).setFlags _

theorem memRead (s : State) (addr : Word) : Progress s (s.memRead addr).2 := .read (.refl s) addr

theorem memWrite (s : State) (addr : Word) (v : Byte) : Progress s (s.memWrite addr v) :=
  .write (.refl s) addr v

theorem push (s : State) (v : Byte) : Progress s (s.push v) := (memWrite s _ v).setSp _

theorem pull (s : State) : Progress s s.pull.2 :=
  .read ((refl s).setSp (s.sp + 1)) _

theorem pushWord (s : State) (w : Word) : Progress s (s.pushWord w) := (push s _).trans (push _ _)

theorem pullWord (s : State) : Progress s s.pullWord.2 := (pull s).trans (pull _)

theorem readPair (s : State) (l h : Word) : Progress s (s.readPair l h).2 := (memRead s l).trans (memRead _ h)

theorem resolve (s : State) (m : Mode) : Progress s (s.resolve m).2 := by
  rcases State.resolve_cases s m with h | ⟨l, r, h⟩ <;> rw [h]
  · exact .refl s
  · exact readPair s l r

theorem readOperand {s t : State} {m : Mode} {v : Byte} (h : s.readOperand m = some (v, t)) :
    Progress s t := by
  rcases State.opRead_cases h with ⟨rfl, -⟩ | ⟨ea, -, -, rfl⟩
  · exact resolve s m
  · exact (resolve s m).trans (memRead _ ea)

theorem opWrite {s t : State} {o : Operand} {v : Byte} (h : s.opWrite o v = some t) : Progress s t := by
  rcases State.opWrite_cases h with ⟨-, rfl⟩ | ⟨ea, -, rfl⟩
  · exact (refl s).setA v
  · exact memWrite s ea v

theorem interruptEntry (s : State) (vector : Word) : Progress s (s.interruptEntry vector) :=
  ((((readPair s vector (vector + 1)).trans (pushWord _ s.pc)).trans (push _ s.flags.pushed)).setPc _).setFlags _

theorem returnFromInterrupt (s : State) : Progress s s.returnFromInterrupt :=
  (((pull s).setFlags (Flags.decode s.pull.1)).trans (pullWord _)).setPc _

/-- A reading instruction whose own effect makes progress. -/
theorem reading {m : Mode} {s t : State} {k : Byte → State → State} (hk : ∀ v u, Progress u (k v u))
    (h : Machine.reading m s k = .next t) : Progress s t := by
  obtain ⟨v, s1, hv, rfl⟩ := reading_next h
  exact (readOperand hv).trans (hk v s1)

/-- A jump whose own effect makes progress. -/
theorem targeting {m : Mode} {s t : State} {k : Word → State → State} (hk : ∀ w u, Progress u (k w u))
    (h : Machine.targeting m s k = .next t) : Progress s t := by
  obtain ⟨w, -, rfl⟩ := targeting_next h
  exact (resolve s m).trans (hk w _)

theorem storing {m : Mode} {s t : State} {v : Byte} (h : Machine.storing m v s = .next t) : Progress s t :=
  (resolve s m).trans (opWrite (storing_next h))

theorem modifying {m : Mode} {s t : State} {f : Byte → Flags → Byte} {g : Byte → Flags → Flags}
    (h : Machine.modifying m s f g = .next t) : Progress s t := by
  obtain ⟨v, s1, s2, hv, hw, rfl⟩ := modifying_next h
  exact ((readOperand hv).trans (opWrite hw)).setFlags _

end Progress

/-- A register-only meaning. -/
theorem Progress.next {s t u : State} (h : (Host.Outcome.next u : Result) = .next t) (hu : Progress s u) :
    Progress s t := by
  injection h with h
  exact h ▸ hu

/-- Every instruction makes progress by reads, writes and register updates. -/
theorem exec_progress {i : Instr} {s t : State} (h : exec i s = .next t) : Progress s t := by
  by_cases hu : i.mnemonic = .unimplemented
  · obtain ⟨opcode, rfl⟩ := Instr.eq_unimplemented hu
    exact .next h ((Progress.refl s).setRun _)
  · rw [exec_eq_meaning hu] at h
    revert h
    generalize i.mode = m
    cases hn : i.mnemonic <;> intro h
    case unimplemented => exact absurd hn hu
    case jsr => exact .targeting (fun w u => (Progress.pushWord u _).setPc w) h
    case jmp => exact .targeting (fun w u => (Progress.refl u).setPc w) h
    case rts => exact .next h ((Progress.pullWord s).setPc _)
    case pla => exact .next h ((Progress.pull s).loadA _)
    case plp => exact .next h ((Progress.pull s).setFlags _)
    case pha | php => exact .next h (.push s _)
    case brk => exact .next h (.interruptEntry s _)
    case rti => exact .next h (.returnFromInterrupt s)
    case sta | stx | sty => exact .storing h
    case asl | lsr | rol | ror | inc | dec =>
      simp only [meaning, semAsl, semLsr, semRol, semRor, semInc, semDec] at h
      exact .modifying h
    case bcc | bcs | beq | bne | bmi | bpl | bvc | bvs =>
      refine .reading (fun v u => ?_) h
      split
      · exact (Progress.refl u).setPc _
      · exact .refl u
    case adc | sbc => exact .reading (fun v u => ((Progress.refl u).setA _).setFlags _) h
    case cmp | cpx | cpy | bit => exact .reading (fun v u => (Progress.refl u).setFlags _) h
    case and | ora | eor | lda => exact .reading (fun v u => (Progress.refl u).loadA _) h
    case ldx => exact .reading (fun v u => (Progress.refl u).loadX _) h
    case ldy => exact .reading (fun v u => (Progress.refl u).loadY _) h
    case inx | dex | tsx | tax => exact .next h ((Progress.refl s).loadX _)
    case iny | dey | tay => exact .next h ((Progress.refl s).loadY _)
    case txa | tya => exact .next h ((Progress.refl s).loadA _)
    case txs => exact .next h ((Progress.refl s).setSp _)
    case nop => exact .next h (.refl s)
    case clc | cld | cli | clv | sec | sed | sei => exact .next h ((Progress.refl s).setFlags _)

/-! ### What progress keeps -/

theorem Progress.params_eq {s t : State} (h : Progress s t) : t.params = s.params := by
  induction h with
  | refl => rfl
  | read _ _ ih => exact ih
  | write _ _ _ ih => exact ih
  | regs _ _ _ hp _ ih => exact hp.trans ih

theorem Progress.breakCount_eq {s t : State} (h : Progress s t) : t.breakCount = s.breakCount := by
  induction h with
  | refl => rfl
  | read _ _ ih => exact ih
  | write _ _ _ ih => exact ih
  | regs _ _ _ _ hb ih => exact hb.trans ih

/-- Every memory operation keeps the canonical form. -/
theorem Progress.wf {s t : State} (h : Progress s t) (hs : Memory.wf s.mem) : Memory.wf t.mem := by
  induction h with
  | refl => exact hs
  | read _ _ ih => exact ih
  | write _ _ _ ih => exact State.wf_memWrite ih
  | regs _ hm _ _ _ ih => exact hm ▸ ih

/-- Progress only adds events, and memory results from the events added. -/
theorem Progress.history_explains {s t : State} (h : Progress s t) :
    ∃ new, t.history = new ++ s.history ∧ t.mem = replay s.params.device s.mem new ∧
      readsAgree s.params.device s.mem s.history new := by
  induction h with
  | refl => exact ⟨[], rfl, rfl, trivial⟩
  | @read t h addr ih =>
    obtain ⟨new, hh, hm, hr⟩ := ih
    refine ⟨.read addr (t.peek addr) :: new, by simp [hh], hm, hr, ?_⟩
    have hp := h.params_eq
    cases hc : deviceCell s.params.device addr with
    | some cell => simp [State.peek, hp, hc, ← hm]
    | none => simp [State.peek, hp, hc, ← hh]
  | @write t h addr v ih =>
    obtain ⟨new, hh, hm, hr⟩ := ih
    exact ⟨.write addr v :: new, by simp [hh], by simp [replay, ← hm, h.params_eq], hr⟩
  | regs _ hm hh _ _ ih =>
    obtain ⟨new, hh', hm', hr⟩ := ih
    exact ⟨new, hh.trans hh', hm.trans hm', hr⟩

end Sys2Proof.Machine
end

