-- ==== Sys2Proof/Laws/PerInstr.lean ====
section
/-! SUPPORT. Statements about every instruction as syntax, one lemma per constructor. -/

/-! The bytes an instruction encodes to: its opcode and the operand bytes of its mode (30_encoding.md R61). -/

def Sys2Proof.Laws.EncodedLength.Statement (i : Sys2Proof.Instr) : Prop :=
  (Sys2Proof.encode i).length = i.length

namespace Sys2Proof.Laws.EncodedLength

theorem adcImm (imm8 : Byte) : Statement (.adcImm imm8) := rfl
theorem adcZp (zp8 : Byte) : Statement (.adcZp zp8) := rfl
theorem adcZpx (zp8 : Byte) : Statement (.adcZpx zp8) := rfl
theorem adcAbs (abs16 : Word) : Statement (.adcAbs abs16) := rfl
theorem adcAbsx (abs16 : Word) : Statement (.adcAbsx abs16) := rfl
theorem adcAbsy (abs16 : Word) : Statement (.adcAbsy abs16) := rfl
theorem adcIndx (zp8 : Byte) : Statement (.adcIndx zp8) := rfl
theorem adcIndy (zp8 : Byte) : Statement (.adcIndy zp8) := rfl
theorem sbcImm (imm8 : Byte) : Statement (.sbcImm imm8) := rfl
theorem sbcZp (zp8 : Byte) : Statement (.sbcZp zp8) := rfl
theorem sbcZpx (zp8 : Byte) : Statement (.sbcZpx zp8) := rfl
theorem sbcAbs (abs16 : Word) : Statement (.sbcAbs abs16) := rfl
theorem sbcAbsx (abs16 : Word) : Statement (.sbcAbsx abs16) := rfl
theorem sbcAbsy (abs16 : Word) : Statement (.sbcAbsy abs16) := rfl
theorem sbcIndx (zp8 : Byte) : Statement (.sbcIndx zp8) := rfl
theorem sbcIndy (zp8 : Byte) : Statement (.sbcIndy zp8) := rfl
theorem andImm (imm8 : Byte) : Statement (.andImm imm8) := rfl
theorem andZp (zp8 : Byte) : Statement (.andZp zp8) := rfl
theorem andZpx (zp8 : Byte) : Statement (.andZpx zp8) := rfl
theorem andAbs (abs16 : Word) : Statement (.andAbs abs16) := rfl
theorem andAbsx (abs16 : Word) : Statement (.andAbsx abs16) := rfl
theorem andAbsy (abs16 : Word) : Statement (.andAbsy abs16) := rfl
theorem andIndx (zp8 : Byte) : Statement (.andIndx zp8) := rfl
theorem andIndy (zp8 : Byte) : Statement (.andIndy zp8) := rfl
theorem oraImm (imm8 : Byte) : Statement (.oraImm imm8) := rfl
theorem oraZp (zp8 : Byte) : Statement (.oraZp zp8) := rfl
theorem oraZpx (zp8 : Byte) : Statement (.oraZpx zp8) := rfl
theorem oraAbs (abs16 : Word) : Statement (.oraAbs abs16) := rfl
theorem oraAbsx (abs16 : Word) : Statement (.oraAbsx abs16) := rfl
theorem oraAbsy (abs16 : Word) : Statement (.oraAbsy abs16) := rfl
theorem oraIndx (zp8 : Byte) : Statement (.oraIndx zp8) := rfl
theorem oraIndy (zp8 : Byte) : Statement (.oraIndy zp8) := rfl
theorem eorImm (imm8 : Byte) : Statement (.eorImm imm8) := rfl
theorem eorZp (zp8 : Byte) : Statement (.eorZp zp8) := rfl
theorem eorZpx (zp8 : Byte) : Statement (.eorZpx zp8) := rfl
theorem eorAbs (abs16 : Word) : Statement (.eorAbs abs16) := rfl
theorem eorAbsx (abs16 : Word) : Statement (.eorAbsx abs16) := rfl
theorem eorAbsy (abs16 : Word) : Statement (.eorAbsy abs16) := rfl
theorem eorIndx (zp8 : Byte) : Statement (.eorIndx zp8) := rfl
theorem eorIndy (zp8 : Byte) : Statement (.eorIndy zp8) := rfl
theorem aslAcc : Statement (.aslAcc) := rfl
theorem aslZp (zp8 : Byte) : Statement (.aslZp zp8) := rfl
theorem aslZpx (zp8 : Byte) : Statement (.aslZpx zp8) := rfl
theorem aslAbs (abs16 : Word) : Statement (.aslAbs abs16) := rfl
theorem aslAbsx (abs16 : Word) : Statement (.aslAbsx abs16) := rfl
theorem lsrAcc : Statement (.lsrAcc) := rfl
theorem lsrZp (zp8 : Byte) : Statement (.lsrZp zp8) := rfl
theorem lsrZpx (zp8 : Byte) : Statement (.lsrZpx zp8) := rfl
theorem lsrAbs (abs16 : Word) : Statement (.lsrAbs abs16) := rfl
theorem lsrAbsx (abs16 : Word) : Statement (.lsrAbsx abs16) := rfl
theorem rolAcc : Statement (.rolAcc) := rfl
theorem rolZp (zp8 : Byte) : Statement (.rolZp zp8) := rfl
theorem rolZpx (zp8 : Byte) : Statement (.rolZpx zp8) := rfl
theorem rolAbs (abs16 : Word) : Statement (.rolAbs abs16) := rfl
theorem rolAbsx (abs16 : Word) : Statement (.rolAbsx abs16) := rfl
theorem rorAcc : Statement (.rorAcc) := rfl
theorem rorZp (zp8 : Byte) : Statement (.rorZp zp8) := rfl
theorem rorZpx (zp8 : Byte) : Statement (.rorZpx zp8) := rfl
theorem rorAbs (abs16 : Word) : Statement (.rorAbs abs16) := rfl
theorem rorAbsx (abs16 : Word) : Statement (.rorAbsx abs16) := rfl
theorem incZp (zp8 : Byte) : Statement (.incZp zp8) := rfl
theorem incZpx (zp8 : Byte) : Statement (.incZpx zp8) := rfl
theorem incAbs (abs16 : Word) : Statement (.incAbs abs16) := rfl
theorem incAbsx (abs16 : Word) : Statement (.incAbsx abs16) := rfl
theorem decZp (zp8 : Byte) : Statement (.decZp zp8) := rfl
theorem decZpx (zp8 : Byte) : Statement (.decZpx zp8) := rfl
theorem decAbs (abs16 : Word) : Statement (.decAbs abs16) := rfl
theorem decAbsx (abs16 : Word) : Statement (.decAbsx abs16) := rfl
theorem inx : Statement (.inx) := rfl
theorem iny : Statement (.iny) := rfl
theorem dex : Statement (.dex) := rfl
theorem dey : Statement (.dey) := rfl
theorem cmpImm (imm8 : Byte) : Statement (.cmpImm imm8) := rfl
theorem cmpZp (zp8 : Byte) : Statement (.cmpZp zp8) := rfl
theorem cmpZpx (zp8 : Byte) : Statement (.cmpZpx zp8) := rfl
theorem cmpAbs (abs16 : Word) : Statement (.cmpAbs abs16) := rfl
theorem cmpAbsx (abs16 : Word) : Statement (.cmpAbsx abs16) := rfl
theorem cmpAbsy (abs16 : Word) : Statement (.cmpAbsy abs16) := rfl
theorem cmpIndx (zp8 : Byte) : Statement (.cmpIndx zp8) := rfl
theorem cmpIndy (zp8 : Byte) : Statement (.cmpIndy zp8) := rfl
theorem cpxImm (imm8 : Byte) : Statement (.cpxImm imm8) := rfl
theorem cpxZp (zp8 : Byte) : Statement (.cpxZp zp8) := rfl
theorem cpxAbs (abs16 : Word) : Statement (.cpxAbs abs16) := rfl
theorem cpyImm (imm8 : Byte) : Statement (.cpyImm imm8) := rfl
theorem cpyZp (zp8 : Byte) : Statement (.cpyZp zp8) := rfl
theorem cpyAbs (abs16 : Word) : Statement (.cpyAbs abs16) := rfl
theorem bitZp (zp8 : Byte) : Statement (.bitZp zp8) := rfl
theorem bitAbs (abs16 : Word) : Statement (.bitAbs abs16) := rfl
theorem bcc (rel8 : Byte) : Statement (.bcc rel8) := rfl
theorem bcs (rel8 : Byte) : Statement (.bcs rel8) := rfl
theorem beq (rel8 : Byte) : Statement (.beq rel8) := rfl
theorem bne (rel8 : Byte) : Statement (.bne rel8) := rfl
theorem bmi (rel8 : Byte) : Statement (.bmi rel8) := rfl
theorem bpl (rel8 : Byte) : Statement (.bpl rel8) := rfl
theorem bvc (rel8 : Byte) : Statement (.bvc rel8) := rfl
theorem bvs (rel8 : Byte) : Statement (.bvs rel8) := rfl
theorem pha : Statement (.pha) := rfl
theorem php : Statement (.php) := rfl
theorem pla : Statement (.pla) := rfl
theorem plp : Statement (.plp) := rfl
theorem tsx : Statement (.tsx) := rfl
theorem txs : Statement (.txs) := rfl
theorem tax : Statement (.tax) := rfl
theorem tay : Statement (.tay) := rfl
theorem txa : Statement (.txa) := rfl
theorem tya : Statement (.tya) := rfl
theorem jmpAbs (abs16 : Word) : Statement (.jmpAbs abs16) := rfl
theorem jmpInd (ptr16 : Word) : Statement (.jmpInd ptr16) := rfl
theorem jsr (abs16 : Word) : Statement (.jsr abs16) := rfl
theorem rts : Statement (.rts) := rfl
theorem brk : Statement (.brk) := rfl
theorem rti : Statement (.rti) := rfl
theorem clc : Statement (.clc) := rfl
theorem cld : Statement (.cld) := rfl
theorem cli : Statement (.cli) := rfl
theorem clv : Statement (.clv) := rfl
theorem sec : Statement (.sec) := rfl
theorem sed : Statement (.sed) := rfl
theorem sei : Statement (.sei) := rfl
theorem nop : Statement (.nop) := rfl
theorem ldaImm (imm8 : Byte) : Statement (.ldaImm imm8) := rfl
theorem ldaZp (zp8 : Byte) : Statement (.ldaZp zp8) := rfl
theorem ldaZpx (zp8 : Byte) : Statement (.ldaZpx zp8) := rfl
theorem ldaAbs (abs16 : Word) : Statement (.ldaAbs abs16) := rfl
theorem ldaAbsx (abs16 : Word) : Statement (.ldaAbsx abs16) := rfl
theorem ldaAbsy (abs16 : Word) : Statement (.ldaAbsy abs16) := rfl
theorem ldaIndx (zp8 : Byte) : Statement (.ldaIndx zp8) := rfl
theorem ldaIndy (zp8 : Byte) : Statement (.ldaIndy zp8) := rfl
theorem ldxImm (imm8 : Byte) : Statement (.ldxImm imm8) := rfl
theorem ldxZp (zp8 : Byte) : Statement (.ldxZp zp8) := rfl
theorem ldxZpy (zp8 : Byte) : Statement (.ldxZpy zp8) := rfl
theorem ldxAbs (abs16 : Word) : Statement (.ldxAbs abs16) := rfl
theorem ldxAbsy (abs16 : Word) : Statement (.ldxAbsy abs16) := rfl
theorem ldyImm (imm8 : Byte) : Statement (.ldyImm imm8) := rfl
theorem ldyZp (zp8 : Byte) : Statement (.ldyZp zp8) := rfl
theorem ldyZpx (zp8 : Byte) : Statement (.ldyZpx zp8) := rfl
theorem ldyAbs (abs16 : Word) : Statement (.ldyAbs abs16) := rfl
theorem ldyAbsx (abs16 : Word) : Statement (.ldyAbsx abs16) := rfl
theorem staZp (zp8 : Byte) : Statement (.staZp zp8) := rfl
theorem staZpx (zp8 : Byte) : Statement (.staZpx zp8) := rfl
theorem staAbs (abs16 : Word) : Statement (.staAbs abs16) := rfl
theorem staAbsx (abs16 : Word) : Statement (.staAbsx abs16) := rfl
theorem staAbsy (abs16 : Word) : Statement (.staAbsy abs16) := rfl
theorem staIndx (zp8 : Byte) : Statement (.staIndx zp8) := rfl
theorem staIndy (zp8 : Byte) : Statement (.staIndy zp8) := rfl
theorem stxZp (zp8 : Byte) : Statement (.stxZp zp8) := rfl
theorem stxZpy (zp8 : Byte) : Statement (.stxZpy zp8) := rfl
theorem stxAbs (abs16 : Word) : Statement (.stxAbs abs16) := rfl
theorem styZp (zp8 : Byte) : Statement (.styZp zp8) := rfl
theorem styZpx (zp8 : Byte) : Statement (.styZpx zp8) := rfl
theorem styAbs (abs16 : Word) : Statement (.styAbs abs16) := rfl
theorem unimplemented (opcode : Byte) : Statement (.unimplemented opcode) := rfl

end Sys2Proof.Laws.EncodedLength
end

