-- ==== Sys2Proof/Laws/Step.lean ====
section
/-! SUPPORT. What a fetch and a step do, said once. -/

namespace Sys2Proof.Machine

theorem reset_mem_wf : Memory.wf State.reset.mem := ⟨List.Pairwise.nil, by simp [State.reset, State.launch]⟩

theorem step_running {s : State} (h : s.run = .running) :
    step s = match s.fetch with
      | .halted s' => .next s'
      | .instr i s' => exec i s' := by
  obtain ⟨⟩ := s
  cases h
  rfl

theorem State.countBreak_of_ne {s : State} {opcode : Byte} (h : opcode ≠ breakOpcode) :
    s.countBreak opcode = s := if_neg h

theorem State.breakHalts_of_ne {s : State} {opcode : Byte} (h : opcode ≠ breakOpcode) :
    s.breakHalts opcode = false := by
  simp [State.breakHalts, h]

theorem State.breakHalts_break (s : State) :
    s.breakHalts breakOpcode = decide (s.breakCount + 1 > s.params.maxBreakCount) := by
  simp [State.breakHalts]

/-- The machine after the opcode byte of a step is read and counted, with PC past it (R69). -/
def State.afterOpcode (s : State) : State :=
  (((s.memRead s.pc).2).countBreak (s.peek s.pc)).setPc (s.pc + 1)

/-- A fetch that halts: the count, the opcode read and the run state are all that changes (R70). -/
theorem State.fetch_halts {s : State} (h : s.breakHalts (s.peek s.pc) = true) :
    s.fetch = .halted (((s.memRead s.pc).2.countBreak (s.peek s.pc)).setRun .halted) := by
  simp only [State.fetch, State.memRead_fst, h, if_true]

/-- A fetch that does not halt: the instruction at PC, and the machine past its bytes (R69). -/
theorem State.fetch_runs {s : State} (h : s.breakHalts (s.peek s.pc) = false) :
    s.fetch = .instr
      (decodeInstr (s.peek s.pc)
        ((s.afterOpcode.fetchBytes (operandCount (s.peek s.pc))).1.getD 0 0)
        ((s.afterOpcode.fetchBytes (operandCount (s.peek s.pc))).1.getD 1 0))
      (s.afterOpcode.fetchBytes (operandCount (s.peek s.pc))).2 := by
  simp only [State.fetch, State.memRead_fst, h, Bool.false_eq_true, if_false, State.afterOpcode]

/-- A step in `running` is a halting fetch, or an instruction executed past its bytes. -/
theorem step_cases {s t : State} (h : step s = .next t) :
    s.run = .running ∧
      ((s.breakHalts (s.peek s.pc) = true ∧
          t = ((s.memRead s.pc).2.countBreak (s.peek s.pc)).setRun .halted) ∨
        (s.breakHalts (s.peek s.pc) = false ∧
          exec (decodeInstr (s.peek s.pc)
              ((s.afterOpcode.fetchBytes (operandCount (s.peek s.pc))).1.getD 0 0)
              ((s.afterOpcode.fetchBytes (operandCount (s.peek s.pc))).1.getD 1 0))
            (s.afterOpcode.fetchBytes (operandCount (s.peek s.pc))).2 = .next t)) := by
  unfold step at h
  split at h
  · cases h
  · cases h
  · rename_i hr
    refine ⟨hr, ?_⟩
    cases hb : s.breakHalts (s.peek s.pc)
    · rw [State.fetch_runs hb] at h
      exact .inr ⟨rfl, h⟩
    · rw [State.fetch_halts hb] at h
      injection h with h
      exact .inl ⟨rfl, h.symm⟩

/-- Fetching makes progress by reads. -/
theorem Progress.fetchBytes (n : Nat) (s : State) : Progress s (State.fetchBytes n s).2 := by
  induction n generalizing s with
  | zero => exact .refl s
  | succ n ih => exact ((Progress.memRead s s.pc).setPc _).trans (ih _)

@[simp] theorem State.afterOpcode_history (s : State) :
    s.afterOpcode.history = .read s.pc (s.peek s.pc) :: s.history := by
  simp only [State.afterOpcode, State.setPc_history, State.countBreak]
  split <;> rfl

@[simp] theorem State.afterOpcode_mem (s : State) : s.afterOpcode.mem = s.mem := by
  simp only [State.afterOpcode, State.setPc_mem, State.countBreak]
  split <;> rfl

@[simp] theorem State.afterOpcode_params (s : State) : s.afterOpcode.params = s.params := by
  simp only [State.afterOpcode, State.setPc_params, State.countBreak]
  split <;> rfl

@[simp] theorem State.afterOpcode_run (s : State) : s.afterOpcode.run = s.run := by
  simp only [State.afterOpcode, State.setPc_run, State.countBreak]
  split <;> rfl

theorem State.afterOpcode_breakCount (s : State) :
    s.afterOpcode.breakCount = if s.peek s.pc = breakOpcode then s.breakCount + 1 else s.breakCount := by
  simp only [State.afterOpcode, State.setPc_breakCount, State.countBreak]
  split <;> rfl

/-- The run loop ends with the run. -/
theorem runLoop_succ (n : Nat) (s : State) :
    runLoop (n + 1) s = match step s with
      | .next s' => runLoop n s'
      | .fault _ => s
      | .refused _ => s := rfl

/-- What every step keeps, a run keeps: the induction over a run, once. -/
theorem runLoop_induction {P : State → Prop} (hP : ∀ s t, P s → step s = .next t → P t)
    (n : Nat) {s : State} (h : P s) : P (runLoop n s) := by
  induction n generalizing s with
  | zero => exact h
  | succ n ih =>
    rw [runLoop_succ]
    split
    · exact ih (hP _ _ h ‹_›)
    · exact h
    · exact h

end Sys2Proof.Machine
end

