-- ==== Sys2Proof/Tests/Slice0.lean ====
section
/-! SUPPORT. Tests with expected results from the spec: the ill-formed term, one decoded word per constructor
from the opcode list of 30_encoding.md R64 and R65, single steps from the vectors of 95_test_vectors.md (the
`V` and part number of each is cited), and a witness for the hypotheses of each statement. -/

open Sys2Proof Sys2Proof.Machine

namespace Sys2Proof.Tests

/-! ### Well-formedness -/

/-- R65, R66: a byte of R64 is no sentinel, so the sentinel term that carries one is refused. -/
theorem test_wellFormed_refuses_an_instruction_byte :
    WellFormed (.unimplemented 0xA9) = false ∧ WellFormed (.unimplemented 0x00) = false ∧
      WellFormed (.unimplemented 0x02) = true := by decide

/-! ### Decoding, one word per constructor (R64, R65) -/

theorem test_decode_arithmetic :
    decode [0x69, 0x34] = .ok (.adcImm 0x34, []) ∧
    decode [0x65, 0x34] = .ok (.adcZp 0x34, []) ∧
    decode [0x75, 0x34] = .ok (.adcZpx 0x34, []) ∧
    decode [0x6D, 0x34, 0x12] = .ok (.adcAbs 0x1234, []) ∧
    decode [0x7D, 0x34, 0x12] = .ok (.adcAbsx 0x1234, []) ∧
    decode [0x79, 0x34, 0x12] = .ok (.adcAbsy 0x1234, []) ∧
    decode [0x61, 0x34] = .ok (.adcIndx 0x34, []) ∧
    decode [0x71, 0x34] = .ok (.adcIndy 0x34, []) ∧
    decode [0xE9, 0x34] = .ok (.sbcImm 0x34, []) ∧
    decode [0xE5, 0x34] = .ok (.sbcZp 0x34, []) ∧
    decode [0xF5, 0x34] = .ok (.sbcZpx 0x34, []) ∧
    decode [0xED, 0x34, 0x12] = .ok (.sbcAbs 0x1234, []) ∧
    decode [0xFD, 0x34, 0x12] = .ok (.sbcAbsx 0x1234, []) ∧
    decode [0xF9, 0x34, 0x12] = .ok (.sbcAbsy 0x1234, []) ∧
    decode [0xE1, 0x34] = .ok (.sbcIndx 0x34, []) ∧
    decode [0xF1, 0x34] = .ok (.sbcIndy 0x34, []) := by
  refine ⟨?_, ?_, ?_, ?_, ?_, ?_, ?_, ?_, ?_, ?_, ?_, ?_, ?_, ?_, ?_, ?_⟩ <;> rfl

theorem test_decode_logic :
    decode [0x29, 0x34] = .ok (.andImm 0x34, []) ∧
    decode [0x25, 0x34] = .ok (.andZp 0x34, []) ∧
    decode [0x35, 0x34] = .ok (.andZpx 0x34, []) ∧
    decode [0x2D, 0x34, 0x12] = .ok (.andAbs 0x1234, []) ∧
    decode [0x3D, 0x34, 0x12] = .ok (.andAbsx 0x1234, []) ∧
    decode [0x39, 0x34, 0x12] = .ok (.andAbsy 0x1234, []) ∧
    decode [0x21, 0x34] = .ok (.andIndx 0x34, []) ∧
    decode [0x31, 0x34] = .ok (.andIndy 0x34, []) ∧
    decode [0x09, 0x34] = .ok (.oraImm 0x34, []) ∧
    decode [0x05, 0x34] = .ok (.oraZp 0x34, []) ∧
    decode [0x15, 0x34] = .ok (.oraZpx 0x34, []) ∧
    decode [0x0D, 0x34, 0x12] = .ok (.oraAbs 0x1234, []) ∧
    decode [0x1D, 0x34, 0x12] = .ok (.oraAbsx 0x1234, []) ∧
    decode [0x19, 0x34, 0x12] = .ok (.oraAbsy 0x1234, []) ∧
    decode [0x01, 0x34] = .ok (.oraIndx 0x34, []) ∧
    decode [0x11, 0x34] = .ok (.oraIndy 0x34, []) ∧
    decode [0x49, 0x34] = .ok (.eorImm 0x34, []) ∧
    decode [0x45, 0x34] = .ok (.eorZp 0x34, []) ∧
    decode [0x55, 0x34] = .ok (.eorZpx 0x34, []) ∧
    decode [0x4D, 0x34, 0x12] = .ok (.eorAbs 0x1234, []) ∧
    decode [0x5D, 0x34, 0x12] = .ok (.eorAbsx 0x1234, []) ∧
    decode [0x59, 0x34, 0x12] = .ok (.eorAbsy 0x1234, []) ∧
    decode [0x41, 0x34] = .ok (.eorIndx 0x34, []) ∧
    decode [0x51, 0x34] = .ok (.eorIndy 0x34, []) := by
  refine ⟨?_, ?_, ?_, ?_, ?_, ?_, ?_, ?_, ?_, ?_, ?_, ?_, ?_, ?_, ?_, ?_, ?_, ?_, ?_, ?_, ?_, ?_, ?_, ?_⟩ <;> rfl

theorem test_decode_shift :
    decode [0x0A] = .ok (.aslAcc, []) ∧
    decode [0x06, 0x34] = .ok (.aslZp 0x34, []) ∧
    decode [0x16, 0x34] = .ok (.aslZpx 0x34, []) ∧
    decode [0x0E, 0x34, 0x12] = .ok (.aslAbs 0x1234, []) ∧
    decode [0x1E, 0x34, 0x12] = .ok (.aslAbsx 0x1234, []) ∧
    decode [0x4A] = .ok (.lsrAcc, []) ∧
    decode [0x46, 0x34] = .ok (.lsrZp 0x34, []) ∧
    decode [0x56, 0x34] = .ok (.lsrZpx 0x34, []) ∧
    decode [0x4E, 0x34, 0x12] = .ok (.lsrAbs 0x1234, []) ∧
    decode [0x5E, 0x34, 0x12] = .ok (.lsrAbsx 0x1234, []) ∧
    decode [0x2A] = .ok (.rolAcc, []) ∧
    decode [0x26, 0x34] = .ok (.rolZp 0x34, []) ∧
    decode [0x36, 0x34] = .ok (.rolZpx 0x34, []) ∧
    decode [0x2E, 0x34, 0x12] = .ok (.rolAbs 0x1234, []) ∧
    decode [0x3E, 0x34, 0x12] = .ok (.rolAbsx 0x1234, []) ∧
    decode [0x6A] = .ok (.rorAcc, []) ∧
    decode [0x66, 0x34] = .ok (.rorZp 0x34, []) ∧
    decode [0x76, 0x34] = .ok (.rorZpx 0x34, []) ∧
    decode [0x6E, 0x34, 0x12] = .ok (.rorAbs 0x1234, []) ∧
    decode [0x7E, 0x34, 0x12] = .ok (.rorAbsx 0x1234, []) := by
  refine ⟨?_, ?_, ?_, ?_, ?_, ?_, ?_, ?_, ?_, ?_, ?_, ?_, ?_, ?_, ?_, ?_, ?_, ?_, ?_, ?_⟩ <;> rfl

theorem test_decode_step_by_one :
    decode [0xE6, 0x34] = .ok (.incZp 0x34, []) ∧
    decode [0xF6, 0x34] = .ok (.incZpx 0x34, []) ∧
    decode [0xEE, 0x34, 0x12] = .ok (.incAbs 0x1234, []) ∧
    decode [0xFE, 0x34, 0x12] = .ok (.incAbsx 0x1234, []) ∧
    decode [0xC6, 0x34] = .ok (.decZp 0x34, []) ∧
    decode [0xD6, 0x34] = .ok (.decZpx 0x34, []) ∧
    decode [0xCE, 0x34, 0x12] = .ok (.decAbs 0x1234, []) ∧
    decode [0xDE, 0x34, 0x12] = .ok (.decAbsx 0x1234, []) ∧
    decode [0xE8] = .ok (.inx, []) ∧
    decode [0xC8] = .ok (.iny, []) ∧
    decode [0xCA] = .ok (.dex, []) ∧
    decode [0x88] = .ok (.dey, []) := by
  refine ⟨?_, ?_, ?_, ?_, ?_, ?_, ?_, ?_, ?_, ?_, ?_, ?_⟩ <;> rfl

theorem test_decode_compare :
    decode [0xC9, 0x34] = .ok (.cmpImm 0x34, []) ∧
    decode [0xC5, 0x34] = .ok (.cmpZp 0x34, []) ∧
    decode [0xD5, 0x34] = .ok (.cmpZpx 0x34, []) ∧
    decode [0xCD, 0x34, 0x12] = .ok (.cmpAbs 0x1234, []) ∧
    decode [0xDD, 0x34, 0x12] = .ok (.cmpAbsx 0x1234, []) ∧
    decode [0xD9, 0x34, 0x12] = .ok (.cmpAbsy 0x1234, []) ∧
    decode [0xC1, 0x34] = .ok (.cmpIndx 0x34, []) ∧
    decode [0xD1, 0x34] = .ok (.cmpIndy 0x34, []) ∧
    decode [0xE0, 0x34] = .ok (.cpxImm 0x34, []) ∧
    decode [0xE4, 0x34] = .ok (.cpxZp 0x34, []) ∧
    decode [0xEC, 0x34, 0x12] = .ok (.cpxAbs 0x1234, []) ∧
    decode [0xC0, 0x34] = .ok (.cpyImm 0x34, []) ∧
    decode [0xC4, 0x34] = .ok (.cpyZp 0x34, []) ∧
    decode [0xCC, 0x34, 0x12] = .ok (.cpyAbs 0x1234, []) ∧
    decode [0x24, 0x34] = .ok (.bitZp 0x34, []) ∧
    decode [0x2C, 0x34, 0x12] = .ok (.bitAbs 0x1234, []) := by
  refine ⟨?_, ?_, ?_, ?_, ?_, ?_, ?_, ?_, ?_, ?_, ?_, ?_, ?_, ?_, ?_, ?_⟩ <;> rfl

theorem test_decode_branch :
    decode [0x90, 0x34] = .ok (.bcc 0x34, []) ∧
    decode [0xB0, 0x34] = .ok (.bcs 0x34, []) ∧
    decode [0xF0, 0x34] = .ok (.beq 0x34, []) ∧
    decode [0xD0, 0x34] = .ok (.bne 0x34, []) ∧
    decode [0x30, 0x34] = .ok (.bmi 0x34, []) ∧
    decode [0x10, 0x34] = .ok (.bpl 0x34, []) ∧
    decode [0x50, 0x34] = .ok (.bvc 0x34, []) ∧
    decode [0x70, 0x34] = .ok (.bvs 0x34, []) := by
  refine ⟨?_, ?_, ?_, ?_, ?_, ?_, ?_, ?_⟩ <;> rfl

theorem test_decode_stack_and_transfer :
    decode [0x48] = .ok (.pha, []) ∧
    decode [0x08] = .ok (.php, []) ∧
    decode [0x68] = .ok (.pla, []) ∧
    decode [0x28] = .ok (.plp, []) ∧
    decode [0xBA] = .ok (.tsx, []) ∧
    decode [0x9A] = .ok (.txs, []) ∧
    decode [0xAA] = .ok (.tax, []) ∧
    decode [0xA8] = .ok (.tay, []) ∧
    decode [0x8A] = .ok (.txa, []) ∧
    decode [0x98] = .ok (.tya, []) := by
  refine ⟨?_, ?_, ?_, ?_, ?_, ?_, ?_, ?_, ?_, ?_⟩ <;> rfl

theorem test_decode_jump_and_interrupt :
    decode [0x4C, 0x34, 0x12] = .ok (.jmpAbs 0x1234, []) ∧
    decode [0x6C, 0x34, 0x12] = .ok (.jmpInd 0x1234, []) ∧
    decode [0x20, 0x34, 0x12] = .ok (.jsr 0x1234, []) ∧
    decode [0x60] = .ok (.rts, []) ∧
    decode [0x00] = .ok (.brk, []) ∧
    decode [0x40] = .ok (.rti, []) := by
  refine ⟨?_, ?_, ?_, ?_, ?_, ?_⟩ <;> rfl

theorem test_decode_flag :
    decode [0x18] = .ok (.clc, []) ∧
    decode [0xD8] = .ok (.cld, []) ∧
    decode [0x58] = .ok (.cli, []) ∧
    decode [0xB8] = .ok (.clv, []) ∧
    decode [0x38] = .ok (.sec, []) ∧
    decode [0xF8] = .ok (.sed, []) ∧
    decode [0x78] = .ok (.sei, []) ∧
    decode [0xEA] = .ok (.nop, []) := by
  refine ⟨?_, ?_, ?_, ?_, ?_, ?_, ?_, ?_⟩ <;> rfl

theorem test_decode_load :
    decode [0xA9, 0x34] = .ok (.ldaImm 0x34, []) ∧
    decode [0xA5, 0x34] = .ok (.ldaZp 0x34, []) ∧
    decode [0xB5, 0x34] = .ok (.ldaZpx 0x34, []) ∧
    decode [0xAD, 0x34, 0x12] = .ok (.ldaAbs 0x1234, []) ∧
    decode [0xBD, 0x34, 0x12] = .ok (.ldaAbsx 0x1234, []) ∧
    decode [0xB9, 0x34, 0x12] = .ok (.ldaAbsy 0x1234, []) ∧
    decode [0xA1, 0x34] = .ok (.ldaIndx 0x34, []) ∧
    decode [0xB1, 0x34] = .ok (.ldaIndy 0x34, []) ∧
    decode [0xA2, 0x34] = .ok (.ldxImm 0x34, []) ∧
    decode [0xA6, 0x34] = .ok (.ldxZp 0x34, []) ∧
    decode [0xB6, 0x34] = .ok (.ldxZpy 0x34, []) ∧
    decode [0xAE, 0x34, 0x12] = .ok (.ldxAbs 0x1234, []) ∧
    decode [0xBE, 0x34, 0x12] = .ok (.ldxAbsy 0x1234, []) ∧
    decode [0xA0, 0x34] = .ok (.ldyImm 0x34, []) ∧
    decode [0xA4, 0x34] = .ok (.ldyZp 0x34, []) ∧
    decode [0xB4, 0x34] = .ok (.ldyZpx 0x34, []) ∧
    decode [0xAC, 0x34, 0x12] = .ok (.ldyAbs 0x1234, []) ∧
    decode [0xBC, 0x34, 0x12] = .ok (.ldyAbsx 0x1234, []) := by
  refine ⟨?_, ?_, ?_, ?_, ?_, ?_, ?_, ?_, ?_, ?_, ?_, ?_, ?_, ?_, ?_, ?_, ?_, ?_⟩ <;> rfl

theorem test_decode_store :
    decode [0x85, 0x34] = .ok (.staZp 0x34, []) ∧
    decode [0x95, 0x34] = .ok (.staZpx 0x34, []) ∧
    decode [0x8D, 0x34, 0x12] = .ok (.staAbs 0x1234, []) ∧
    decode [0x9D, 0x34, 0x12] = .ok (.staAbsx 0x1234, []) ∧
    decode [0x99, 0x34, 0x12] = .ok (.staAbsy 0x1234, []) ∧
    decode [0x81, 0x34] = .ok (.staIndx 0x34, []) ∧
    decode [0x91, 0x34] = .ok (.staIndy 0x34, []) ∧
    decode [0x86, 0x34] = .ok (.stxZp 0x34, []) ∧
    decode [0x96, 0x34] = .ok (.stxZpy 0x34, []) ∧
    decode [0x8E, 0x34, 0x12] = .ok (.stxAbs 0x1234, []) ∧
    decode [0x84, 0x34] = .ok (.styZp 0x34, []) ∧
    decode [0x94, 0x34] = .ok (.styZpx 0x34, []) ∧
    decode [0x8C, 0x34, 0x12] = .ok (.styAbs 0x1234, []) := by
  refine ⟨?_, ?_, ?_, ?_, ?_, ?_, ?_, ?_, ?_, ?_, ?_, ?_, ?_⟩ <;> rfl

theorem test_decode_sentinel :
    decode [0x02, 0x34] = .ok (.unimplemented 0x02, [0x34]) ∧ decode [0xFF] = .ok (.unimplemented 0xFF, []) := by
  refine ⟨?_, ?_⟩ <;> rfl

theorem test_decode_refuses_a_missing_byte :
    decode [] = .error .noOpcode ∧ decode [0x20, 0x00] = .error (.operandMissing 0x20) := by
  refine ⟨?_, ?_⟩ <;> rfl

/-- The table's numbering: byte0 in bits 7..0, byte1 in bits 15..8 (spec/opcode_table.json). -/
theorem test_decodeTableWord :
    decodeTableWord 24 0x02008D = some (.staAbs 0x0200) ∧ decodeTableWord 16 0x42A9 = some (.ldaImm 0x42) ∧
      decodeTableWord 8 0x0A = some .aslAcc ∧ decodeTableWord 8 0x6C = some (.jmpInd 0x0000) := by decide

/-! ### Single steps (95_test_vectors.md, parts 2 and 3) -/

/-- Every flag 0: the start of the vectors. -/
def noFlags : Flags := ⟨false, false, false, false, false, false, false⟩

/-- The start state of 95_test_vectors.md: SP 0xFF, the bytes at PC, the cells listed. -/
def start (pc : Word) (bytes : List Byte) (cells : List (Word × Byte)) : State :=
  cells.foldl (fun s c => s.hostPoke c.1 c.2)
    ((State.launch 0 0 0 0xFF pc noFlags [] defaultParams).hostPokes pc bytes)

/-- A, X, Y, SP, PC and the flags after one step. -/
def regsAfter (s : State) : Option (Byte × Byte × Byte × Byte × Word × Flags) :=
  match step s with
  | .next t => some (t.a, t.x, t.y, t.sp, t.pc, t.flags)
  | .fault _ | .refused _ => none

/-- The byte at an address after one step. -/
def byteAfter (s : State) (addr : Word) : Option Byte :=
  match step s with
  | .next t => t.memByte addr
  | .fault _ | .refused _ => none

/-- The run state after one step. -/
def runAfter (s : State) : Option RunState :=
  match step s with
  | .next t => some t.run
  | .fault _ | .refused _ => none

/-- The accesses of one step, oldest first. -/
def accessesOf (s : State) : List Access :=
  match step s with
  | .next t => t.history.reverse
  | .fault _ | .refused _ => []

/-- V41-2: ADC #$80, §8 row 2. -/
theorem test_adcImm_v41_2 :
    let s : State := { start 0x0600 [0x69, 0x80] [] with a := 0x80 }
    regsAfter s = some (0x00, 0x00, 0x00, 0xFF, 0x0602, { noFlags with v := true, z := true, c := true }) := by decide

/-- V41-3: ADC #$01 signed overflow. -/
theorem test_adcImm_v41_3 :
    let s : State := { start 0x0600 [0x69, 0x01] [] with a := 0x7F }
    regsAfter s = some (0x80, 0x00, 0x00, 0xFF, 0x0602, { noFlags with n := true, v := true }) := by decide

/-- V41-6: ADC $10 (zero page). -/
theorem test_adcZp_v41_6 :
    let s : State := { start 0x0600 [0x65, 0x10] [(0x0010, 0x20)] with a := 0x10, flags := { noFlags with c := true } }
    regsAfter s = some (0x31, 0x00, 0x00, 0xFF, 0x0602, noFlags) := by decide

/-- V41-7: SBC #$B0. -/
theorem test_sbcImm_v41_7 :
    let s : State := { start 0x0600 [0xE9, 0xB0] [] with a := 0x50, flags := { noFlags with c := true } }
    regsAfter s = some (0xA0, 0x00, 0x00, 0xFF, 0x0602, { noFlags with n := true, v := true }) := by decide

/-- V41-10: SBC #$00 with C = 0 (borrow in). -/
theorem test_sbcImm_v41_10 :
    let s : State := { start 0x0600 [0xE9, 0x00] [] with a := 0x10 }
    regsAfter s = some (0x0F, 0x00, 0x00, 0xFF, 0x0602, { noFlags with c := true }) := by decide

/-- V41-12: AND #$3C. -/
theorem test_andImm_v41_12 :
    let s : State := { start 0x0600 [0x29, 0x3C] [] with a := 0xF0 }
    regsAfter s = some (0x30, 0x00, 0x00, 0xFF, 0x0602, noFlags) := by decide

/-- V41-13: AND #$00. -/
theorem test_andImm_v41_13 :
    let s : State := { start 0x0600 [0x29, 0x00] [] with a := 0xFF, flags := { noFlags with v := true, c := true } }
    regsAfter s = some (0x00, 0x00, 0x00, 0xFF, 0x0602, { noFlags with v := true, z := true, c := true }) := by decide

/-- V41-14: ORA #$80. -/
theorem test_oraImm_v41_14 :
    let s : State := { start 0x0600 [0x09, 0x80] [] with a := 0x0F }
    regsAfter s = some (0x8F, 0x00, 0x00, 0xFF, 0x0602, { noFlags with n := true }) := by decide

/-- V41-15: EOR #$0F. -/
theorem test_eorImm_v41_15 :
    let s : State := { start 0x0600 [0x49, 0x0F] [] with a := 0xFF }
    regsAfter s = some (0xF0, 0x00, 0x00, 0xFF, 0x0602, { noFlags with n := true }) := by decide

/-- V41-16: EOR #$5A equal. -/
theorem test_eorImm_v41_16 :
    let s : State := { start 0x0600 [0x49, 0x5A] [] with a := 0x5A }
    regsAfter s = some (0x00, 0x00, 0x00, 0xFF, 0x0602, { noFlags with z := true }) := by decide

/-- V42-1: ASL A. -/
theorem test_aslAcc_v42_1 :
    let s : State := { start 0x0600 [0x0A] [] with a := 0x41 }
    regsAfter s = some (0x82, 0x00, 0x00, 0xFF, 0x0601, { noFlags with n := true }) ∧
    accessesOf s = [.read 0x0600 0x0A] := by decide

/-- V42-2: ASL A carry out, zero. -/
theorem test_aslAcc_v42_2 :
    let s : State := { start 0x0600 [0x0A] [] with a := 0x80 }
    regsAfter s = some (0x00, 0x00, 0x00, 0xFF, 0x0601, { noFlags with z := true, c := true }) := by decide

/-- V42-3: ASL $10 (RMW memory). -/
theorem test_aslZp_v42_3 :
    let s : State := start 0x0600 [0x06, 0x10] [(0x0010, 0xC1)]
    regsAfter s = some (0x00, 0x00, 0x00, 0xFF, 0x0602, { noFlags with n := true, c := true }) ∧
    byteAfter s 0x0010 = some 0x82 := by decide

/-- V42-4: LSR A. -/
theorem test_lsrAcc_v42_4 :
    let s : State := { start 0x0600 [0x4A] [] with a := 0x01, flags := { noFlags with n := true } }
    regsAfter s = some (0x00, 0x00, 0x00, 0xFF, 0x0601, { noFlags with z := true, c := true }) := by decide

/-- V42-5: LSR $0300. -/
theorem test_lsrAbs_v42_5 :
    let s : State := start 0x0600 [0x4E, 0x00, 0x03] [(0x0300, 0xFF)]
    regsAfter s = some (0x00, 0x00, 0x00, 0xFF, 0x0603, { noFlags with c := true }) ∧
    byteAfter s 0x0300 = some 0x7F := by decide

/-- V42-6: ROL A with C = 1. -/
theorem test_rolAcc_v42_6 :
    let s : State := { start 0x0600 [0x2A] [] with a := 0x40, flags := { noFlags with c := true } }
    regsAfter s = some (0x81, 0x00, 0x00, 0xFF, 0x0601, { noFlags with n := true }) := by decide

/-- V42-7: ROL A 0x80, C = 0. -/
theorem test_rolAcc_v42_7 :
    let s : State := { start 0x0600 [0x2A] [] with a := 0x80 }
    regsAfter s = some (0x00, 0x00, 0x00, 0xFF, 0x0601, { noFlags with z := true, c := true }) := by decide

/-- V42-8: ROR A with C = 1. -/
theorem test_rorAcc_v42_8 :
    let s : State := { start 0x0600 [0x6A] [] with a := 0x02, flags := { noFlags with c := true } }
    regsAfter s = some (0x81, 0x00, 0x00, 0xFF, 0x0601, { noFlags with n := true }) := by decide

/-- V42-9: ROR A 0x01, C = 0. -/
theorem test_rorAcc_v42_9 :
    let s : State := { start 0x0600 [0x6A] [] with a := 0x01 }
    regsAfter s = some (0x00, 0x00, 0x00, 0xFF, 0x0601, { noFlags with z := true, c := true }) := by decide

/-- V42-10: ROR $10,X with wrap. -/
theorem test_rorZpx_v42_10 :
    let s : State := { start 0x0600 [0x76, 0xF0] [(0x0010, 0x01)] with x := 0x20, flags := { noFlags with c := true } }
    regsAfter s = some (0x00, 0x20, 0x00, 0xFF, 0x0602, { noFlags with n := true, c := true }) ∧
    byteAfter s 0x0010 = some 0x80 := by decide

/-- V43-1: INC $10 wraps to 0. -/
theorem test_incZp_v43_1 :
    let s : State := { start 0x0600 [0xE6, 0x10] [(0x0010, 0xFF)] with flags := { noFlags with c := true } }
    regsAfter s = some (0x00, 0x00, 0x00, 0xFF, 0x0602, { noFlags with z := true, c := true }) ∧
    byteAfter s 0x0010 = some 0x00 := by decide

/-- V43-2: INC $0200,X. -/
theorem test_incAbsx_v43_2 :
    let s : State := { start 0x0600 [0xFE, 0x00, 0x02] [(0x0201, 0x7F)] with x := 0x01 }
    regsAfter s = some (0x00, 0x01, 0x00, 0xFF, 0x0603, { noFlags with n := true }) ∧
    byteAfter s 0x0201 = some 0x80 := by decide

/-- V43-3: DEC $10 from 0. -/
theorem test_decZp_v43_3 :
    let s : State := start 0x0600 [0xC6, 0x10] [(0x0010, 0x00)]
    regsAfter s = some (0x00, 0x00, 0x00, 0xFF, 0x0602, { noFlags with n := true }) ∧
    byteAfter s 0x0010 = some 0xFF := by decide

/-- V43-4: DEC $0200 to 0. -/
theorem test_decAbs_v43_4 :
    let s : State := start 0x0600 [0xCE, 0x00, 0x02] [(0x0200, 0x01)]
    regsAfter s = some (0x00, 0x00, 0x00, 0xFF, 0x0603, { noFlags with z := true }) ∧
    byteAfter s 0x0200 = some 0x00 := by decide

/-- V43-5: INX from 0xFF. -/
theorem test_inx_v43_5 :
    let s : State := { start 0x0600 [0xE8] [] with x := 0xFF }
    regsAfter s = some (0x00, 0x00, 0x00, 0xFF, 0x0601, { noFlags with z := true }) := by decide

/-- V43-6: INY from 0x7F. -/
theorem test_iny_v43_6 :
    let s : State := { start 0x0600 [0xC8] [] with y := 0x7F }
    regsAfter s = some (0x00, 0x00, 0x80, 0xFF, 0x0601, { noFlags with n := true }) := by decide

/-- V43-7: DEX from 0x00. -/
theorem test_dex_v43_7 :
    let s : State := start 0x0600 [0xCA] []
    regsAfter s = some (0x00, 0xFF, 0x00, 0xFF, 0x0601, { noFlags with n := true }) := by decide

/-- V43-8: DEY from 0x01. -/
theorem test_dey_v43_8 :
    let s : State := { start 0x0600 [0x88] [] with y := 0x01 }
    regsAfter s = some (0x00, 0x00, 0x00, 0xFF, 0x0601, { noFlags with z := true }) := by decide

/-- V44-1: CMP #$20, A less. -/
theorem test_cmpImm_v44_1 :
    let s : State := { start 0x0600 [0xC9, 0x20] [] with a := 0x10 }
    regsAfter s = some (0x10, 0x00, 0x00, 0xFF, 0x0602, { noFlags with n := true }) := by decide

/-- V44-3: CMP #$00, A = 0x80 (document N, not NMOS N). -/
theorem test_cmpImm_v44_3 :
    let s : State := { start 0x0600 [0xC9, 0x00] [] with a := 0x80 }
    regsAfter s = some (0x80, 0x00, 0x00, 0xFF, 0x0602, { noFlags with c := true }) := by decide

/-- V44-6: CPX #$05 equal. -/
theorem test_cpxImm_v44_6 :
    let s : State := { start 0x0600 [0xE0, 0x05] [] with x := 0x05 }
    regsAfter s = some (0x00, 0x05, 0x00, 0xFF, 0x0602, { noFlags with z := true, c := true }) := by decide

/-- V44-7: CPY $10. -/
theorem test_cpyZp_v44_7 :
    let s : State := { start 0x0600 [0xC4, 0x10] [(0x0010, 0x10)] with y := 0x90 }
    regsAfter s = some (0x00, 0x00, 0x90, 0xFF, 0x0602, { noFlags with c := true }) := by decide

/-- V44-8: BIT $10, N and V from memory. -/
theorem test_bitZp_v44_8 :
    let s : State := { start 0x0600 [0x24, 0x10] [(0x0010, 0xC0)] with a := 0x01 }
    regsAfter s = some (0x01, 0x00, 0x00, 0xFF, 0x0602, { noFlags with n := true, v := true, z := true }) := by decide

/-- V44-9: BIT $0300. -/
theorem test_bitAbs_v44_9 :
    let s : State := { start 0x0600 [0x2C, 0x00, 0x03] [(0x0300, 0x4F)] with a := 0x0F, flags := { noFlags with n := true, c := true } }
    regsAfter s = some (0x0F, 0x00, 0x00, 0xFF, 0x0603, { noFlags with v := true, c := true }) := by decide

/-- V45-1: BCC taken forward. -/
theorem test_bcc_v45_1 :
    let s : State := start 0x0600 [0x90, 0x10] []
    regsAfter s = some (0x00, 0x00, 0x00, 0xFF, 0x0612, noFlags) := by decide

/-- V45-2: BCC not taken. -/
theorem test_bcc_v45_2 :
    let s : State := { start 0x0600 [0x90, 0x10] [] with flags := { noFlags with c := true } }
    regsAfter s = some (0x00, 0x00, 0x00, 0xFF, 0x0602, { noFlags with c := true }) := by decide

/-- V45-3: BCS to itself. -/
theorem test_bcs_v45_3 :
    let s : State := { start 0x0600 [0xB0, 0xFE] [] with flags := { noFlags with c := true } }
    regsAfter s = some (0x00, 0x00, 0x00, 0xFF, 0x0600, { noFlags with c := true }) := by decide

/-- V45-4: BEQ taken. -/
theorem test_beq_v45_4 :
    let s : State := { start 0x0600 [0xF0, 0x02] [] with flags := { noFlags with z := true } }
    regsAfter s = some (0x00, 0x00, 0x00, 0xFF, 0x0604, { noFlags with z := true }) := by decide

/-- V45-5: BEQ backward across 0x0000. -/
theorem test_beq_v45_5 :
    let s : State := { start 0x0005 [0xF0, 0xF0] [] with flags := { noFlags with z := true } }
    regsAfter s = some (0x00, 0x00, 0x00, 0xFF, 0xFFF7, { noFlags with z := true }) := by decide

/-- V45-6: BNE forward across 0xFFFF. -/
theorem test_bne_v45_6 :
    let s : State := start 0xFFF8 [0xD0, 0x10] []
    regsAfter s = some (0x00, 0x00, 0x00, 0xFF, 0x000A, noFlags) := by decide

/-- V45-7: BMI -128. -/
theorem test_bmi_v45_7 :
    let s : State := { start 0x0600 [0x30, 0x80] [] with flags := { noFlags with n := true } }
    regsAfter s = some (0x00, 0x00, 0x00, 0xFF, 0x0582, { noFlags with n := true }) := by decide

/-- V45-8: BPL +127. -/
theorem test_bpl_v45_8 :
    let s : State := start 0x0600 [0x10, 0x7F] []
    regsAfter s = some (0x00, 0x00, 0x00, 0xFF, 0x0681, noFlags) := by decide

/-- V45-9: BPL not taken. -/
theorem test_bpl_v45_9 :
    let s : State := { start 0x0600 [0x10, 0x04] [] with flags := { noFlags with n := true } }
    regsAfter s = some (0x00, 0x00, 0x00, 0xFF, 0x0602, { noFlags with n := true }) := by decide

/-- V45-10: BVC taken. -/
theorem test_bvc_v45_10 :
    let s : State := start 0x0600 [0x50, 0x05] []
    regsAfter s = some (0x00, 0x00, 0x00, 0xFF, 0x0607, noFlags) := by decide

/-- V45-11: BVS taken. -/
theorem test_bvs_v45_11 :
    let s : State := { start 0x0600 [0x70, 0x05] [] with flags := { noFlags with v := true } }
    regsAfter s = some (0x00, 0x00, 0x00, 0xFF, 0x0607, { noFlags with v := true }) := by decide

/-- V45-12: BVS not taken. -/
theorem test_bvs_v45_12 :
    let s : State := start 0x0600 [0x70, 0x05] []
    regsAfter s = some (0x00, 0x00, 0x00, 0xFF, 0x0602, noFlags) := by decide

/-- V46-1: PHA. -/
theorem test_pha_v46_1 :
    let s : State := { start 0x0600 [0x48] [] with a := 0x42 }
    regsAfter s = some (0x42, 0x00, 0x00, 0xFE, 0x0601, noFlags) ∧
    byteAfter s 0x01FF = some 0x42 := by decide

/-- V46-2: PHA with SP = 0x00 wraps. -/
theorem test_pha_v46_2 :
    let s : State := { start 0x0600 [0x48] [] with a := 0x42, sp := 0x00 }
    regsAfter s = some (0x42, 0x00, 0x00, 0xFF, 0x0601, noFlags) ∧
    byteAfter s 0x0100 = some 0x42 := by decide

/-- V46-3: PHP, N and C set, B = 0. -/
theorem test_php_v46_3 :
    let s : State := { start 0x0600 [0x08] [] with flags := { noFlags with n := true, c := true } }
    regsAfter s = some (0x00, 0x00, 0x00, 0xFE, 0x0601, { noFlags with n := true, c := true }) ∧
    byteAfter s 0x01FF = some 0xB1 := by decide

/-- V46-4: PHP, all flags 0. -/
theorem test_php_v46_4 :
    let s : State := start 0x0600 [0x08] []
    regsAfter s = some (0x00, 0x00, 0x00, 0xFE, 0x0601, noFlags) ∧
    byteAfter s 0x01FF = some 0x30 := by decide

/-- V46-5: PLA. -/
theorem test_pla_v46_5 :
    let s : State := { start 0x0600 [0x68] [(0x01FF, 0x80)] with sp := 0xFE }
    regsAfter s = some (0x80, 0x00, 0x00, 0xFF, 0x0601, { noFlags with n := true }) := by decide

/-- V46-6: PLA with SP = 0xFF wraps. -/
theorem test_pla_v46_6 :
    let s : State := start 0x0600 [0x68] [(0x0100, 0x00)]
    regsAfter s = some (0x00, 0x00, 0x00, 0x00, 0x0601, { noFlags with z := true }) := by decide

/-- V46-7: PLP loads B. -/
theorem test_plp_v46_7 :
    let s : State := { start 0x0600 [0x28] [(0x01FF, 0x30)] with sp := 0xFE }
    regsAfter s = some (0x00, 0x00, 0x00, 0xFF, 0x0601, { noFlags with b := true }) := by decide

/-- V46-8: PLP of 0x00 clears all. -/
theorem test_plp_v46_8 :
    let s : State := { start 0x0600 [0x28] [(0x01FF, 0x00)] with sp := 0xFE, flags := { noFlags with n := true, v := true, b := true, d := true, i := true, z := true, c := true } }
    regsAfter s = some (0x00, 0x00, 0x00, 0xFF, 0x0601, noFlags) := by decide

/-- V46-9: TSX. -/
theorem test_tsx_v46_9 :
    let s : State := { start 0x0600 [0xBA] [] with sp := 0xFD }
    regsAfter s = some (0x00, 0xFD, 0x00, 0xFD, 0x0601, { noFlags with n := true }) := by decide

/-- V46-10: TXS sets no flag. -/
theorem test_txs_v46_10 :
    let s : State := start 0x0600 [0x9A] []
    regsAfter s = some (0x00, 0x00, 0x00, 0x00, 0x0601, noFlags) := by decide

/-- V46-11: TAX. -/
theorem test_tax_v46_11 :
    let s : State := { start 0x0600 [0xAA] [] with a := 0x90 }
    regsAfter s = some (0x90, 0x90, 0x00, 0xFF, 0x0601, { noFlags with n := true }) := by decide

/-- V46-12: TAY zero. -/
theorem test_tay_v46_12 :
    let s : State := { start 0x0600 [0xA8] [] with y := 0x33 }
    regsAfter s = some (0x00, 0x00, 0x00, 0xFF, 0x0601, { noFlags with z := true }) := by decide

/-- V46-13: TXA. -/
theorem test_txa_v46_13 :
    let s : State := { start 0x0600 [0x8A] [] with x := 0x80 }
    regsAfter s = some (0x80, 0x80, 0x00, 0xFF, 0x0601, { noFlags with n := true }) := by decide

/-- V46-14: TYA. -/
theorem test_tya_v46_14 :
    let s : State := { start 0x0600 [0x98] [] with y := 0x7F, flags := { noFlags with n := true } }
    regsAfter s = some (0x7F, 0x00, 0x7F, 0xFF, 0x0601, noFlags) := by decide

/-- V47-1: JMP $0700. -/
theorem test_jmpAbs_v47_1 :
    let s : State := start 0x0600 [0x4C, 0x00, 0x07] []
    regsAfter s = some (0x00, 0x00, 0x00, 0xFF, 0x0700, noFlags) := by decide

/-- V47-3: JMP ($02FF), JMP_IND_PAGE_WRAP = false. -/
theorem test_jmpInd_v47_3 :
    let s : State := { start 0x0600 [0x6C, 0xFF, 0x02] [(0x02FF, 0x00), (0x0300, 0x40), (0x0200, 0x80)] with params := { defaultParams with jmpIndPageWrap := false } }
    regsAfter s = some (0x00, 0x00, 0x00, 0xFF, 0x4000, noFlags) := by decide

/-- V47-4: JMP ($02FF), JMP_IND_PAGE_WRAP = true. -/
theorem test_jmpInd_v47_4 :
    let s : State := { start 0x0600 [0x6C, 0xFF, 0x02] [(0x02FF, 0x00), (0x0300, 0x40), (0x0200, 0x80)] with params := { defaultParams with jmpIndPageWrap := true } }
    regsAfter s = some (0x00, 0x00, 0x00, 0xFF, 0x8000, noFlags) := by decide

/-- V47-5: JSR $0700. -/
theorem test_jsr_v47_5 :
    let s : State := start 0x0600 [0x20, 0x00, 0x07] []
    regsAfter s = some (0x00, 0x00, 0x00, 0xFD, 0x0700, noFlags) ∧
    byteAfter s 0x01FF = some 0x06 ∧
    byteAfter s 0x01FE = some 0x02 ∧
    accessesOf s = [.read 0x0600 0x20, .read 0x0601 0x00, .read 0x0602 0x07, .write 0x01FF 0x06, .write 0x01FE 0x02] := by decide

/-- V47-6: JSR with SP = 0x00. -/
theorem test_jsr_v47_6 :
    let s : State := { start 0x0600 [0x20, 0x00, 0x07] [] with sp := 0x00 }
    regsAfter s = some (0x00, 0x00, 0x00, 0xFE, 0x0700, noFlags) ∧
    byteAfter s 0x0100 = some 0x06 ∧
    byteAfter s 0x01FF = some 0x02 := by decide

/-- V47-7: RTS. -/
theorem test_rts_v47_7 :
    let s : State := { start 0x0600 [0x60] [(0x01FE, 0x02), (0x01FF, 0x06)] with sp := 0xFD }
    regsAfter s = some (0x00, 0x00, 0x00, 0xFF, 0x0603, noFlags) ∧
    accessesOf s = [.read 0x0600 0x60, .read 0x01FE 0x02, .read 0x01FF 0x06] := by decide

/-- V47-8: RTS of 0xFFFF. -/
theorem test_rts_v47_8 :
    let s : State := { start 0x0600 [0x60] [(0x01FE, 0xFF), (0x01FF, 0xFF)] with sp := 0xFD }
    regsAfter s = some (0x00, 0x00, 0x00, 0xFF, 0x0000, noFlags) := by decide

/-- V48-1: BRK executes (MAX_BREAK_COUNT = 1). -/
theorem test_brk_v48_1 :
    let s : State := { start 0x0601 [0x00] [(0xFFFE, 0x00), (0xFFFF, 0x07)] with flags := { noFlags with c := true }, params := { defaultParams with maxBreakCount := 1 } }
    regsAfter s = some (0x00, 0x00, 0x00, 0xFC, 0x0700, { noFlags with i := true, c := true }) ∧
    byteAfter s 0x01FF = some 0x06 ∧
    byteAfter s 0x01FE = some 0x02 ∧
    byteAfter s 0x01FD = some 0x31 ∧
    accessesOf s = [.read 0x0601 0x00, .read 0xFFFE 0x00, .read 0xFFFF 0x07, .write 0x01FF 0x06, .write 0x01FE 0x02, .write 0x01FD 0x31] := by decide

/-- V48-2: BRK with I = 1, D = 1, B = 0 (not masked). -/
theorem test_brk_v48_2 :
    let s : State := { start 0x0600 [0x00] [(0xFFFE, 0x00), (0xFFFF, 0x80)] with flags := { noFlags with d := true, i := true }, params := { defaultParams with maxBreakCount := 1 } }
    regsAfter s = some (0x00, 0x00, 0x00, 0xFC, 0x8000, { noFlags with d := true, i := true }) ∧
    byteAfter s 0x01FF = some 0x06 ∧
    byteAfter s 0x01FE = some 0x01 ∧
    byteAfter s 0x01FD = some 0x3C := by decide

/-- V48-4: RTI. -/
theorem test_rti_v48_4 :
    let s : State := { start 0x0700 [0x40] [(0x01FD, 0x31), (0x01FE, 0x02), (0x01FF, 0x06)] with sp := 0xFC, flags := { noFlags with i := true } }
    regsAfter s = some (0x00, 0x00, 0x00, 0xFF, 0x0602, { noFlags with b := true, c := true }) ∧
    accessesOf s = [.read 0x0700 0x40, .read 0x01FD 0x31, .read 0x01FE 0x02, .read 0x01FF 0x06] := by decide

/-- V48-5: RTI with SP wrap. -/
theorem test_rti_v48_5 :
    let s : State := { start 0x0600 [0x40] [(0x01FE, 0xC3), (0x01FF, 0x34), (0x0100, 0x12)] with sp := 0xFD }
    regsAfter s = some (0x00, 0x00, 0x00, 0x00, 0x1234, { noFlags with n := true, v := true, z := true, c := true }) := by decide

/-- V49-1: CLC. -/
theorem test_clc_v49_1 :
    let s : State := { start 0x0600 [0x18] [] with flags := { noFlags with c := true } }
    regsAfter s = some (0x00, 0x00, 0x00, 0xFF, 0x0601, noFlags) := by decide

/-- V49-2: CLD. -/
theorem test_cld_v49_2 :
    let s : State := { start 0x0600 [0xD8] [] with flags := { noFlags with d := true } }
    regsAfter s = some (0x00, 0x00, 0x00, 0xFF, 0x0601, noFlags) := by decide

/-- V49-3: CLI. -/
theorem test_cli_v49_3 :
    let s : State := { start 0x0600 [0x58] [] with flags := { noFlags with i := true } }
    regsAfter s = some (0x00, 0x00, 0x00, 0xFF, 0x0601, noFlags) := by decide

/-- V49-4: CLV. -/
theorem test_clv_v49_4 :
    let s : State := { start 0x0600 [0xB8] [] with flags := { noFlags with v := true } }
    regsAfter s = some (0x00, 0x00, 0x00, 0xFF, 0x0601, noFlags) := by decide

/-- V49-5: SEC. -/
theorem test_sec_v49_5 :
    let s : State := start 0x0600 [0x38] []
    regsAfter s = some (0x00, 0x00, 0x00, 0xFF, 0x0601, { noFlags with c := true }) := by decide

/-- V49-6: SED. -/
theorem test_sed_v49_6 :
    let s : State := start 0x0600 [0xF8] []
    regsAfter s = some (0x00, 0x00, 0x00, 0xFF, 0x0601, { noFlags with d := true }) := by decide

/-- V49-7: SEI. -/
theorem test_sei_v49_7 :
    let s : State := start 0x0600 [0x78] []
    regsAfter s = some (0x00, 0x00, 0x00, 0xFF, 0x0601, { noFlags with i := true }) := by decide

/-- V49-8: NOP at 0xFFFF. -/
theorem test_nop_v49_8 :
    let s : State := start 0xFFFF [0xEA] []
    regsAfter s = some (0x00, 0x00, 0x00, 0xFF, 0x0000, noFlags) := by decide

/-- V49-9: LDA #$00. -/
theorem test_ldaImm_v49_9 :
    let s : State := { start 0x0600 [0xA9, 0x00] [] with a := 0x55 }
    regsAfter s = some (0x00, 0x00, 0x00, 0xFF, 0x0602, { noFlags with z := true }) := by decide

/-- V49-10: LDA #$80. -/
theorem test_ldaImm_v49_10 :
    let s : State := start 0x0600 [0xA9, 0x80] []
    regsAfter s = some (0x80, 0x00, 0x00, 0xFF, 0x0602, { noFlags with n := true }) := by decide

/-- V49-12: LDX $F0,Y (ZPY wraps). -/
theorem test_ldxZpy_v49_12 :
    let s : State := { start 0x0600 [0xB6, 0xF0] [(0x0010, 0x01)] with y := 0x20 }
    regsAfter s = some (0x00, 0x01, 0x20, 0xFF, 0x0602, noFlags) := by decide

/-- V49-13: LDY #$FF. -/
theorem test_ldyImm_v49_13 :
    let s : State := start 0x0600 [0xA0, 0xFF] []
    regsAfter s = some (0x00, 0x00, 0xFF, 0xFF, 0x0602, { noFlags with n := true }) := by decide

/-- V49-14: STA $0201. -/
theorem test_staAbs_v49_14 :
    let s : State := { start 0x0600 [0x8D, 0x01, 0x02] [] with a := 0x05 }
    regsAfter s = some (0x05, 0x00, 0x00, 0xFF, 0x0603, noFlags) ∧
    byteAfter s 0x0201 = some 0x05 := by decide

/-- V49-15: STA ($40),Y. -/
theorem test_staIndy_v49_15 :
    let s : State := { start 0x0600 [0x91, 0x40] [(0x0040, 0xF0), (0x0041, 0x12)] with a := 0x77, y := 0x20 }
    regsAfter s = some (0x77, 0x00, 0x20, 0xFF, 0x0602, noFlags) ∧
    byteAfter s 0x1310 = some 0x77 ∧
    accessesOf s = [.read 0x0600 0x91, .read 0x0601 0x40, .read 0x0040 0xF0, .read 0x0041 0x12, .write 0x1310 0x77] := by decide

/-- V49-16: STX $FF,Y wraps. -/
theorem test_stxZpy_v49_16 :
    let s : State := { start 0x0600 [0x96, 0xFF] [] with x := 0x33, y := 0x02 }
    regsAfter s = some (0x00, 0x33, 0x02, 0xFF, 0x0602, noFlags) ∧
    byteAfter s 0x0001 = some 0x33 := by decide

/-- V49-17: STY $80,X (§8 wrap). -/
theorem test_styZpx_v49_17 :
    let s : State := { start 0x0600 [0x94, 0x80] [] with x := 0xFF, y := 0x44 }
    regsAfter s = some (0x00, 0xFF, 0x44, 0xFF, 0x0602, noFlags) ∧
    byteAfter s 0x007F = some 0x44 := by decide

/-- V40-1: ZPX wrap §8: LDA $80,X. -/
theorem test_ldaZpx_v40_1 :
    let s : State := { start 0x0600 [0xB5, 0x80] [(0x007F, 0x11), (0x017F, 0x22)] with x := 0xFF }
    regsAfter s = some (0x11, 0xFF, 0x00, 0xFF, 0x0602, noFlags) := by decide

/-- V40-2: ABSX crosses page: LDA $12F0,X. -/
theorem test_ldaAbsx_v40_2 :
    let s : State := { start 0x0600 [0xBD, 0xF0, 0x12] [(0x1310, 0x5A)] with x := 0x20 }
    regsAfter s = some (0x5A, 0x20, 0x00, 0xFF, 0x0603, noFlags) := by decide

/-- V40-3: ABSY wraps at 0xFFFF: LDA $FFFF,Y. -/
theorem test_ldaAbsy_v40_3 :
    let s : State := { start 0x0600 [0xB9, 0xFF, 0xFF] [(0x0001, 0x66)] with y := 0x02 }
    regsAfter s = some (0x66, 0x00, 0x02, 0xFF, 0x0603, noFlags) := by decide

/-- V40-4: INDX p = 0xFF, ZP_PTR_WRAP = true. -/
theorem test_ldaIndx_v40_4 :
    let s : State := { start 0x0600 [0xA1, 0xFE] [(0x00FF, 0x34), (0x0000, 0x12), (0x0100, 0x56), (0x1234, 0xAB), (0x5634, 0xCD)] with x := 0x01, params := { defaultParams with zpPtrWrap := true } }
    regsAfter s = some (0xAB, 0x01, 0x00, 0xFF, 0x0602, { noFlags with n := true }) := by decide

/-- V40-5: INDX p = 0xFF, ZP_PTR_WRAP = false. -/
theorem test_ldaIndx_v40_5 :
    let s : State := { start 0x0600 [0xA1, 0xFE] [(0x00FF, 0x34), (0x0000, 0x12), (0x0100, 0x56), (0x1234, 0xAB), (0x5634, 0xCD)] with x := 0x01, params := { defaultParams with zpPtrWrap := false } }
    regsAfter s = some (0xCD, 0x01, 0x00, 0xFF, 0x0602, { noFlags with n := true }) := by decide

/-- V40-7: INDY a = 0xFF, ZP_PTR_WRAP = true. -/
theorem test_ldaIndy_v40_7 :
    let s : State := { start 0x0600 [0xB1, 0xFF] [(0x00FF, 0x00), (0x0000, 0x04), (0x0100, 0x05), (0x0400, 0x44), (0x0500, 0x55)] with params := { defaultParams with zpPtrWrap := true } }
    regsAfter s = some (0x44, 0x00, 0x00, 0xFF, 0x0602, noFlags) := by decide

/-- V40-8: INDY a = 0xFF, ZP_PTR_WRAP = false. -/
theorem test_ldaIndy_v40_8 :
    let s : State := { start 0x0600 [0xB1, 0xFF] [(0x00FF, 0x00), (0x0000, 0x04), (0x0100, 0x05), (0x0400, 0x44), (0x0500, 0x55)] with params := { defaultParams with zpPtrWrap := false } }
    regsAfter s = some (0x55, 0x00, 0x00, 0xFF, 0x0602, noFlags) := by decide

/-- V30-1: unimplemented opcode 0x02. -/
theorem test_unimplemented_v30_1 :
    let s : State := { start 0x0600 [0x02, 0xEA] [] with a := 0x11 }
    regsAfter s = some (0x11, 0x00, 0x00, 0xFF, 0x0601, noFlags) ∧
    runAfter s = some (.faulted 0x02 0x0600) ∧
    accessesOf s = [.read 0x0600 0x02] := by decide

/-- V30-2: unimplemented opcode 0xFF at 0xFFFF. -/
theorem test_unimplemented_v30_2 :
    let s : State := start 0xFFFF [0xFF] []
    regsAfter s = some (0x00, 0x00, 0x00, 0xFF, 0x0000, noFlags) ∧
    runAfter s = some (.faulted 0xFF 0xFFFF) := by decide

/-- V30-3: halting BRK. -/
theorem test_breakHalt_v30_3 :
    let s : State := { start 0x0600 [0x00] [] with sp := 0xF0 }
    regsAfter s = some (0x00, 0x00, 0x00, 0xF0, 0x0600, noFlags) ∧
    runAfter s = some (.halted) ∧
    accessesOf s = [.read 0x0600 0x00] := by decide

/-- A placed opcode byte, its operand bytes 0, is executed by the first step after reset (log 11). -/
theorem test_placed_opcode_runs :
    ∀ op ∈ ([0x00, 0x02, 0x20, 0x40, 0x60, 0x6C, 0x81, 0x91, 0xBE, 0xD0, 0xEA, 0xFE, 0xFF] : List Byte), runAfter (State.reset.withFetchWord 8 op.toNat) =
      some (if isSentinel op then .faulted op 0x0000 else .running) := by decide

/-- From reset with nothing placed, the first step fetches the unlisted byte 0x00 and halts (log 11). -/
theorem test_reset_alone_halts : runAfter State.reset = some .halted := by decide

/-- R46's example: a byte written at 0x0000 is seen at every mirror, and 0x2000 is another cell. -/
def mirrored : State :=
  { start 0x0600 [] [] with params := { defaultParams with device := [⟨0x0000, 0x1FFF, .mirror 0x0000 0x0800⟩] } }

theorem test_mirror :
    (mirrored.memWrite 0x0000 0x5A).memByte 0x0800 = some 0x5A ∧
      (mirrored.memWrite 0x0000 0x5A).memByte 0x1000 = some 0x5A ∧
      (mirrored.memWrite 0x0000 0x5A).memByte 0x1800 = some 0x5A ∧
      (mirrored.memWrite 0x0000 0x5A).memByte 0x2000 = some 0x00 := by decide

/-! ### Witnesses: the hypotheses of each statement are met together -/

/-- A device with a peripheral at 0x2000 to 0x2007 before the mirrored range. -/
def withPeripheral : State :=
  { start 0x0600 [] [] with params := { defaultParams with
      device := [⟨0x2000, 0x2007, .peripheral⟩, ⟨0x0000, 0x1FFF, .mirror 0x0000 0x0800⟩] } }

/-- Each clause at the borders of its range: the last mirror, the peripheral's ends, the addresses beside it. -/
theorem witness_AddressesOfOneCellShareItsByte :
    Memory.wf withPeripheral.mem ∧
      (deviceCell withPeripheral.params.device 0x0000 = some 0x0000 ∧
        deviceCell withPeripheral.params.device 0x1800 = some 0x0000) ∧
      (deviceCell withPeripheral.params.device 0x07FF = some 0x07FF ∧
        deviceCell withPeripheral.params.device 0x1FFF = some 0x07FF) ∧
      deviceCell withPeripheral.params.device 0x2008 ≠ deviceCell withPeripheral.params.device 0x1FFF ∧
      deviceCell withPeripheral.params.device 0x2000 = none ∧
      deviceCell withPeripheral.params.device 0x2007 = none := by decide

theorem witness_VectorsAreLittleEndian :
    (start 0x0600 [] []).params.device = [] ∧ Memory.wf (start 0x0600 [0x40] [(0xFFFF, 0x07)]).mem := by decide

theorem witness_PullReturnsWhatWasPushed :
    let s := start 0x0600 [] []
    (Memory.wf s.mem ∧ deviceCell s.params.device (0x0100 + s.sp.setWidth 16) ≠ none) ∧
      (List.replicate 256 (0x00 : Byte)).length = 256 ∧ Memory.wf { s with sp := 0x00 }.mem ∧
      deviceCell s.params.device (0x0100 + (0x00 : Byte).setWidth 16) ≠ none := by
  refine ⟨by decide, List.length_replicate, by decide, by decide⟩

theorem witness_DecodeOfEncodeIsTheInstruction :
    WellFormed (.staAbs 0xFFFF) = true ∧ WellFormed (.unimplemented 0xFF) = true := by decide

theorem witness_EncodeOfDecodeIsTheBytes :
    decode [0x8D, 0x00, 0x02, 0xEA] = .ok (.staAbs 0x0200, [0xEA]) := rfl

theorem witness_OpcodeByteIsAnInstructionOrTheSentinel :
    isSentinel 0x02 = true ∧ isSentinel 0xFF = true ∧ isSentinel 0x00 = false ∧ isSentinel 0xFE = false := by decide

/-- The addresses of three bytes that wrap past 0xFFFF all have cells. -/
theorem witness_FetchReadsAscendingBytes :
    let s := start 0xFFFE [0xAD, 0x12, 0x03] []
    ∀ j < 3, deviceCell s.params.device (s.pc + BitVec.ofNat 16 j) ≠ none := by decide

theorem witness_StepRunsTheDecodedInstruction :
    (let s := start 0x0600 [0xEA] [];
      s.run = .running ∧ decode (s.fetchBytes 1).1 = .ok (.nop, []) ∧ Instr.nop ≠ .brk) ∧
    (let s := start 0xFFFE [0xAD, 0x12, 0x03] [];
      s.run = .running ∧ decode (s.fetchBytes 3).1 = .ok (.ldaAbs 0x0312, []) ∧ Instr.ldaAbs 0x0312 ≠ .brk) := by
  refine ⟨⟨?_, ?_, ?_⟩, ?_, ?_, ?_⟩ <;> first | rfl | decide

/-- The two clauses where they meet: the count after the fetch equals the threshold, and exceeds it by one. -/
theorem witness_BreakCounterHaltsOrRunsBrk :
    let s : State := { start 0x0600 [0x00] [] with params := { defaultParams with maxBreakCount := 1 } }
    (s.run = .running ∧ s.peek s.pc = 0x00 ∧ s.breakCount + 1 ≤ s.params.maxBreakCount) ∧
      ({ s with breakCount := 1 } : State).run = .running ∧ ({ s with breakCount := 1 } : State).peek s.pc = 0x00 ∧
      ({ s with breakCount := 1 } : State).breakCount + 1 > s.params.maxBreakCount ∧
      (start 0x0600 [0xEA] []).run = .running ∧ (start 0x0600 [0xEA] []).peek 0x0600 ≠ 0x00 := by decide

theorem witness_SentinelOpcodeFaultsTheEngine :
    let s := start 0xFFFF [0xFF] []
    isSentinel 0xFF = true ∧ s.run = .running ∧ s.peek s.pc = 0xFF := by decide

theorem witness_StoppedEngineHasNoStep :
    ((start 0 [] []).setRun .halted).run = .halted ∧
      ((start 0 [] []).setRun (.faulted 0x02 0x0600)).run = .faulted 0x02 0x0600 ∧
      ((start 0 [] []).setRun .halted).run ≠ .running := by decide

theorem witness_EveryRunningStepCompletes : State.reset.run = .running := by decide

/-- Both values of the operand's borders, and the second clause's parameter. -/
theorem witness_ZeroPageModesStayInTheZeroPage :
    let s : State := { start 0 [] [] with x := 0xFF, params := { defaultParams with zpPtrWrap := true } }
    (Mode.zpx 0x80 ∈ [Mode.zp 0x80, Mode.zpx 0x80, Mode.zpy 0x80] ∧ (s.resolve (.zpx 0x80)).1 = .mem 0x007F) ∧
      s.params.zpPtrWrap = true ∧ Mode.indx 0xFF ∈ [Mode.indx 0xFF, Mode.indy 0xFF] := by decide

theorem witness_WritingBackTheOperandChangesNothing :
    let s := start 0 [] [(0x0300, 0x5C)]
    Memory.wf s.mem ∧ (s.resolve (.abs 0x0300)).1 = .mem 0x0300 ∧ deviceCell s.params.device 0x0300 ≠ none ∧
      s.readOperand (.abs 0x0300) = some (0x5C, (s.memRead 0x0300).2) ∧
      (s.memRead 0x0300).2.opWrite (.mem 0x0300) 0x5C = some ((s.memRead 0x0300).2.memWrite 0x0300 0x5C) := by
  refine ⟨?_, ?_, ?_, ?_, ?_⟩ <;> first | rfl | decide

theorem witness_OperandReadsChangeOnlyTheHistory :
    (start 0 [] []).readOperand (.abs 0x0300) = some (0x00, ((start 0 [] []).memRead 0x0300).2) := rfl

theorem witness_AdcAddsTheOperandAndTheCarry :
    ((0x71 : Byte), ModeKind.indy) ∈ ([(0x69, .imm), (0x65, .zp), (0x75, .zpx), (0x6D, .abs), (0x7D, .absx),
      (0x79, .absy), (0x61, .indx), (0x71, .indy)] : List (Byte × ModeKind)) := by decide

theorem witness_SbcAddsTheComplementAndTheCarry :
    ((0xF1 : Byte), ModeKind.indy) ∈ ([(0xE9, .imm), (0xE5, .zp), (0xF5, .zpx), (0xED, .abs), (0xFD, .absx),
      (0xF9, .absy), (0xE1, .indx), (0xF1, .indy)] : List (Byte × ModeKind)) := by decide

/-- A step of ADC and one of SBC, each with its operand read. -/
theorem witness_AdcAndSbcMatchIntegerArithmetic :
    let s := start 0 [] []
    (Instr.adcImm 0x80).mnemonic = .adc ∧ s.readOperand (Instr.adcImm 0x80).mode = some (0x80, s) ∧
      (exec (.adcImm 0x80) s = .next { s with a := 0x80, flags := { noFlags with n := true } }) ∧
      (Instr.sbcImm 0x80).mnemonic = .sbc ∧ s.readOperand (Instr.sbcImm 0x80).mode = some (0x80, s) ∧
      exec (.sbcImm 0x80) s = .next { s with a := 0x7F } := by
  refine ⟨?_, ?_, ?_, ?_, ?_, ?_⟩ <;> rfl

theorem witness_LogicInstructionsUpdateTheAccumulator :
    ((0x31 : Byte), ModeKind.indy) ∈ ([(0x29, .imm), (0x25, .zp), (0x35, .zpx), (0x2D, .abs), (0x3D, .absx),
        (0x39, .absy), (0x21, .indx), (0x31, .indy)] : List (Byte × ModeKind)) ∧
      ((0x11 : Byte), ModeKind.indy) ∈ ([(0x09, .imm), (0x05, .zp), (0x15, .zpx), (0x0D, .abs), (0x1D, .absx),
        (0x19, .absy), (0x01, .indx), (0x11, .indy)] : List (Byte × ModeKind)) ∧
      ((0x51 : Byte), ModeKind.indy) ∈ ([(0x49, .imm), (0x45, .zp), (0x55, .zpx), (0x4D, .abs), (0x5D, .absx),
        (0x59, .absy), (0x41, .indx), (0x51, .indy)] : List (Byte × ModeKind)) := by decide

theorem witness_ShiftsMoveOneBitOutToCarry :
    ((0x0A : Byte), ModeKind.acc) ∈ ([(0x0A, .acc), (0x06, .zp), (0x16, .zpx), (0x0E, .abs), (0x1E, .absx)]
        : List (Byte × ModeKind)) ∧
      ((0x5E : Byte), ModeKind.absx) ∈ ([(0x4A, .acc), (0x46, .zp), (0x56, .zpx), (0x4E, .abs), (0x5E, .absx)]
        : List (Byte × ModeKind)) := by decide

theorem witness_RotatesPassThroughTheCarry :
    ((0x2A : Byte), ModeKind.acc) ∈ ([(0x2A, .acc), (0x26, .zp), (0x36, .zpx), (0x2E, .abs), (0x3E, .absx)]
        : List (Byte × ModeKind)) ∧
      ((0x7E : Byte), ModeKind.absx) ∈ ([(0x6A, .acc), (0x66, .zp), (0x76, .zpx), (0x6E, .abs), (0x7E, .absx)]
        : List (Byte × ModeKind)) := by decide

theorem witness_IncAndDecRewriteTheirOperand :
    ((0xFE : Byte), ModeKind.absx) ∈ ([(0xE6, .zp), (0xF6, .zpx), (0xEE, .abs), (0xFE, .absx)]
        : List (Byte × ModeKind)) ∧
      ((0xDE : Byte), ModeKind.absx) ∈ ([(0xC6, .zp), (0xD6, .zpx), (0xCE, .abs), (0xDE, .absx)]
        : List (Byte × ModeKind)) := by decide

theorem witness_CompareSetsFlagsFromTheUnsignedOrder :
    ((0xD1 : Byte), ModeKind.indy) ∈ ([(0xC9, .imm), (0xC5, .zp), (0xD5, .zpx), (0xCD, .abs), (0xDD, .absx),
        (0xD9, .absy), (0xC1, .indx), (0xD1, .indy)] : List (Byte × ModeKind)) ∧
      ((0xEC : Byte), ModeKind.abs) ∈ ([(0xE0, .imm), (0xE4, .zp), (0xEC, .abs)] : List (Byte × ModeKind)) ∧
      ((0xCC : Byte), ModeKind.abs) ∈ ([(0xC0, .imm), (0xC4, .zp), (0xCC, .abs)] : List (Byte × ModeKind)) := by
  decide

theorem witness_BitTestsWithoutWriting :
    ((0x2C : Byte), ModeKind.abs) ∈ ([(0x24, .zp), (0x2C, .abs)] : List (Byte × ModeKind)) := by decide

/-- A taken and an untaken branch are both in the list. -/
theorem witness_BranchesAddTheSignedDisplacement :
    let conds := fun f : Flags => ([(0x90, !f.c), (0xB0, f.c), (0xF0, f.z), (0xD0, !f.z), (0x30, f.n), (0x10, !f.n),
      (0x50, !f.v), (0x70, f.v)] : List (Byte × Bool))
    ((0x90 : Byte), true) ∈ conds noFlags ∧ ((0x70 : Byte), false) ∈ conds noFlags := by decide

theorem witness_JsrThenRtsReturnsAfterTheCall :
    (start 0x0603 [] []).params.device = [] ∧ Memory.wf (start 0x0603 [0x60] []).mem := by decide

/-- The byte at PC after one step. -/
def opcodeAfter (s : State) : Option Byte :=
  match step s with
  | .next t => some (t.peek t.pc)
  | .fault _ | .refused _ => none

/-- The state of V48-1, its BRK executed once, with an RTI at the vector's target. -/
theorem witness_BrkThenRtiRoundTrip :
    let s : State := { start 0x0601 [0x00] [(0xFFFF, 0x07), (0x0700, 0x40)] with
      params := { defaultParams with maxBreakCount := 1 } }
    s.params.device = [] ∧ Memory.wf s.mem ∧ s.run = .running ∧ s.peek s.pc = 0x00 ∧
      s.breakCount + 1 ≤ s.params.maxBreakCount ∧
      opcodeAfter s = some 0x40 := by decide

theorem witness_LoadsCopyTheOperand :
    ((0xB1 : Byte), ModeKind.indy) ∈ ([(0xA9, .imm), (0xA5, .zp), (0xB5, .zpx), (0xAD, .abs), (0xBD, .absx),
        (0xB9, .absy), (0xA1, .indx), (0xB1, .indy)] : List (Byte × ModeKind)) ∧
      ((0xBE : Byte), ModeKind.absy) ∈ ([(0xA2, .imm), (0xA6, .zp), (0xB6, .zpy), (0xAE, .abs), (0xBE, .absy)]
        : List (Byte × ModeKind)) ∧
      ((0xBC : Byte), ModeKind.absx) ∈ ([(0xA0, .imm), (0xA4, .zp), (0xB4, .zpx), (0xAC, .abs), (0xBC, .absx)]
        : List (Byte × ModeKind)) := by decide

theorem witness_StoresWriteTheirRegister :
    ((0x91 : Byte), ModeKind.indy) ∈ ([(0x85, .zp), (0x95, .zpx), (0x8D, .abs), (0x9D, .absx), (0x99, .absy),
        (0x81, .indx), (0x91, .indy)] : List (Byte × ModeKind)) ∧
      ((0x8E : Byte), ModeKind.abs) ∈ ([(0x86, .zp), (0x96, .zpy), (0x8E, .abs)] : List (Byte × ModeKind)) ∧
      ((0x8C : Byte), ModeKind.abs) ∈ ([(0x84, .zp), (0x94, .zpx), (0x8C, .abs)] : List (Byte × ModeKind)) := by
  decide

/-- STA at the top of memory. -/
theorem witness_StoreIsSeenByTheNextFetch :
    let s := start 0x0603 [] []
    Memory.wf s.mem ∧ (Instr.staAbs 0xFFFF).mnemonic = .sta ∧ (s.resolve (Instr.staAbs 0xFFFF).mode).1 = .mem 0xFFFF ∧
      deviceCell s.params.device 0xFFFF ≠ none ∧ exec (.staAbs 0xFFFF) s = .next (s.memWrite 0xFFFF s.a) := by
  refine ⟨?_, ?_, ?_, ?_, ?_⟩ <;> first | rfl | decide

/-- NOP is outside every writer list of the three register and control frames, and of the memory frame. -/
theorem witness_RegistersChangeOnlyUnderTheirWriters :
    exec .nop (start 0x0601 [] []) = .next (start 0x0601 [] []) ∧ Instr.nop.mode ≠ .acc ∧
      Instr.nop.mnemonic ∉ [Mnemonic.adc, .sbc, .and, .ora, .eor, .pla, .txa, .tya, .lda] ∧
      Instr.nop.mnemonic ∉ [Mnemonic.inx, .dex, .tax, .tsx, .ldx] ∧
      Instr.nop.mnemonic ∉ [Mnemonic.iny, .dey, .tay, .ldy] ∧
      Instr.nop.mnemonic ∉ [Mnemonic.pha, .php, .pla, .plp, .jsr, .rts, .brk, .rti, .txs] := by
  refine ⟨?_, ?_, ?_, ?_, ?_, ?_⟩ <;> first | rfl | decide

/-- CMP is outside the lists of V, B, D and I; TXS is outside those of N, Z and C. -/
theorem witness_FlagsChangeOnlyUnderTheirWriters :
    exec .txs (start 0x0601 [] []) = .next ((start 0x0601 [] []).setSp 0x00) ∧
      Instr.txs.mnemonic ∉ [Mnemonic.adc, .sbc, .and, .ora, .eor, .asl, .lsr, .rol, .ror, .inc, .dec, .inx, .iny,
        .dex, .dey, .cmp, .cpx, .cpy, .bit, .pla, .plp, .tax, .tay, .txa, .tya, .tsx, .lda, .ldx, .ldy, .rti] ∧
      Instr.txs.mnemonic ∉ [Mnemonic.adc, .sbc, .asl, .lsr, .rol, .ror, .cmp, .cpx, .cpy, .clc, .sec, .plp, .rti] ∧
      (Instr.cmpImm 0x01).mnemonic ∉ [Mnemonic.adc, .sbc, .bit, .clv, .plp, .rti] ∧
      (Instr.cmpImm 0x01).mnemonic ∉ [Mnemonic.plp, .rti] ∧
      (Instr.cmpImm 0x01).mnemonic ∉ [Mnemonic.cld, .sed, .plp, .rti] ∧
      (Instr.cmpImm 0x01).mnemonic ∉ [Mnemonic.cli, .sei, .brk, .plp, .rti] ∧
      exec (.cmpImm 0x01) (start 0x0602 [] []) =
        .next ((start 0x0602 [] []).setFlags { noFlags with n := true }) := by
  refine ⟨?_, ?_, ?_, ?_, ?_, ?_, ?_, ?_⟩ <;> first | rfl | decide

theorem witness_ControlStateChangesOnlyUnderItsWriters :
    exec .nop (start 0x0601 [] []) = .next (start 0x0601 [] []) ∧ Instr.nop.mnemonic ≠ .unimplemented ∧
      Instr.nop.mnemonic ∉ [Mnemonic.bcc, .bcs, .beq, .bne, .bmi, .bpl, .bvc, .bvs, .jmp, .jsr, .rts, .brk, .rti] := by
  refine ⟨?_, ?_, ?_⟩ <;> first | rfl | decide

theorem witness_NonStoringInstructionsKeepMemory :
    exec .nop (start 0x0601 [] []) = .next (start 0x0601 [] []) ∧
      Instr.nop.mnemonic ∉ [Mnemonic.sta, .stx, .sty, .asl, .lsr, .rol, .ror, .inc, .dec, .pha, .php, .jsr, .brk] := by
  refine ⟨?_, ?_⟩ <;> first | rfl | decide

/-- A store, a read-modify-write of memory and one of the accumulator. -/
theorem witness_OperandStoresChangeOnlyTheirCell :
    let s := start 0x0603 [] []
    Memory.wf s.mem ∧ exec (.staAbs 0x0200) s = .next (s.memWrite 0x0200 0x00) ∧
      (s.resolve (Instr.staAbs 0x0200).mode).1 = .mem 0x0200 ∧
      deviceCell s.params.device 0x0201 ≠ deviceCell s.params.device 0x0200 ∧
      exec .aslAcc s = .next (s.setFlags { noFlags with z := true }) ∧ (s.resolve Instr.aslAcc.mode).1 = .acc ∧
      Instr.aslAcc.mnemonic ∈ [Mnemonic.sta, .stx, .sty, .asl, .lsr, .rol, .ror, .inc, .dec] := by
  refine ⟨?_, ?_, ?_, ?_, ?_, ?_, ?_⟩ <;> first | rfl | decide

/-- PHA, JSR and BRK from SP 0x00, where the pushes wrap in the stack page. -/
theorem witness_PushesChangeOnlyTheirStackSlots :
    let s : State := { start 0x0603 [] [] with sp := 0x00 }
    Memory.wf s.mem ∧ exec .pha s = .next (s.push 0x00) ∧ Instr.pha.mnemonic = .pha ∧
      exec (.jsr 0x0700) s = .next ((s.pushWord 0x0602).setPc 0x0700) ∧ (Instr.jsr 0x0700).mnemonic = .jsr ∧
      exec .brk s = .next (s.interruptEntry 0xFFFE) ∧ Instr.brk.mnemonic = .brk ∧
      deviceCell s.params.device 0x01FD ≠ deviceCell s.params.device (stackAddr (s.sp - 2)) := by
  refine ⟨?_, ?_, ?_, ?_, ?_, ?_, ?_, ?_⟩ <;> first | rfl | decide

theorem witness_InvariantHoldsAtLaunch : Memory.wf [(0x0600, 0x01), (0xFFFF, 0xFF)] := by decide

/-- A running state with the invariant, and the step it answers. -/
theorem witness_EveryStepKeepsTheInvariant :
    (start 0x0600 [0xEA] []).Inv ∧ ∃ t, step (start 0x0600 [0xEA] []) = .next t :=
  ⟨⟨by decide, Nat.zero_le _⟩, _, rfl⟩

theorem witness_StepExtendsTheHistory :
    step (start 0x0600 [0xEA] []) =
      .next { start 0x0600 [0xEA] [] with pc := 0x0601, history := [.read 0x0600 0xEA] } := rfl

/-- Two states that differ in the stored B flag. -/
theorem witness_StoredBFlagIsUnobservable :
    let s := start 0x0600 [0x08] []
    let t : State := { s with flags := { noFlags with b := true } }
    sameButB s t ∧ s ≠ t := by
  refine ⟨?_, ?_⟩ <;> first | rfl | decide

end Sys2Proof.Tests
end

section
/-! PROOFS. 10_state.md: the status byte (R28, R29), bit by bit. -/

namespace Sys2Proof.Machine

/-- Bit 0 of a flag's byte is the flag, every other bit 0. -/
theorem bitByte_getElem (f : Bool) (k : Nat) (hk : k < 8) : (bitByte f)[k] = (f && decide (k = 0)) := by
  cases f <;> simp [bitByte]

/-- The layout of R28. -/
theorem Flags.encode_getLsbD (f : Flags) :
    f.encode.getLsbD 0 = f.c ∧ f.encode.getLsbD 1 = f.z ∧ f.encode.getLsbD 2 = f.i ∧
    f.encode.getLsbD 3 = f.d ∧ f.encode.getLsbD 4 = f.b ∧ f.encode.getLsbD 5 = true ∧
    f.encode.getLsbD 6 = f.v ∧ f.encode.getLsbD 7 = f.n := by
  simp [Flags.encode, bitByte_getElem]

/-- Settles O2: the layout, and the pushed byte by definition. -/
theorem encodeHasTheFixedLayout : Obligations.EncodeHasTheFixedLayout := by
  intro f
  obtain ⟨hc, hz, hi, hd, hb, h5, hv, hn⟩ := f.encode_getLsbD
  exact ⟨hc, hz, hi, hd, hb, h5, hv, hn, rfl⟩

theorem Flags.decode_encode (f : Flags) : Flags.decode f.encode = f := by
  obtain ⟨hc, hz, hi, hd, hb, -, hv, hn⟩ := f.encode_getLsbD
  simp only [Flags.decode, hc, hz, hi, hd, hb, hv, hn]

theorem Flags.encode_decode (b : Byte) : (Flags.decode b).encode = b ||| 0x20 := by
  obtain ⟨hc, hz, hi, hd, hb, h5, hv, hn⟩ := (Flags.decode b).encode_getLsbD
  apply BitVec.eq_of_getLsbD_eq
  intro k hk
  interval_cases k <;> simp_all [Flags.decode]

theorem Flags.decode_flip_bit5 (b : Byte) : Flags.decode (b ^^^ 0x20) = Flags.decode b := by
  simp [Flags.decode]

/-- Settles O3: decoding is the seven bits by definition, and the layout of R28 makes it encoding's inverse. -/
theorem decodeLoadsAllSevenFlags : Obligations.DecodeLoadsAllSevenFlags :=
  ⟨fun b => ⟨rfl, Flags.decode_flip_bit5 b, Flags.encode_decode b⟩, Flags.decode_encode⟩

end Sys2Proof.Machine
end

section
/-! PROOFS. 10_state.md: the footprint of every instruction on the registers, the flags, PC and the run state, said
once as a table; the frame statements are its columns. -/

namespace Sys2Proof.Machine

/-- A part of the state that an instruction can overwrite by name: a register, a flag, PC or the run state. -/
inductive StateField where
  | a | x | y | sp | pc | n | v | b | d | i | z | c | run

/-- The two states hold the same value in the field. -/
def StateField.same (s t : State) : StateField → Prop
  | .a => t.a = s.a
  | .x => t.x = s.x
  | .y => t.y = s.y
  | .sp => t.sp = s.sp
  | .pc => t.pc = s.pc
  | .n => t.flags.n = s.flags.n
  | .v => t.flags.v = s.flags.v
  | .b => t.flags.b = s.flags.b
  | .d => t.flags.d = s.flags.d
  | .i => t.flags.i = s.flags.i
  | .z => t.flags.z = s.flags.z
  | .c => t.flags.c = s.flags.c
  | .run => t.run = s.run

/-- The fields a mnemonic writes whatever its mode (10_state.md R22 to R27, R32). -/
def writtenBy : Mnemonic → List StateField
  | .adc | .sbc => [.a, .n, .v, .z, .c]
  | .and | .ora | .eor | .lda | .txa | .tya => [.a, .n, .z]
  | .pla => [.a, .sp, .n, .z]
  | .inx | .dex | .tax | .tsx | .ldx => [.x, .n, .z]
  | .iny | .dey | .tay | .ldy => [.y, .n, .z]
  | .asl | .lsr | .rol | .ror | .cmp | .cpx | .cpy => [.n, .z, .c]
  | .inc | .dec => [.n, .z]
  | .bit => [.n, .v, .z]
  | .bcc | .bcs | .beq | .bne | .bmi | .bpl | .bvc | .bvs | .jmp => [.pc]
  | .jsr | .rts => [.sp, .pc]
  | .pha | .php | .txs => [.sp]
  | .plp => [.sp, .n, .v, .b, .d, .i, .z, .c]
  | .brk => [.sp, .pc, .i]
  | .rti => [.sp, .pc, .n, .v, .b, .d, .i, .z, .c]
  | .clc | .sec => [.c]
  | .cld | .sed => [.d]
  | .cli | .sei => [.i]
  | .clv => [.v]
  | .nop | .sta | .stx | .sty => []
  | .unimplemented => [.run]

/-- The fields an instruction may write: in the accumulator mode A is also the operand (R22). -/
def footprint (n : Mnemonic) (m : Mode) : List StateField :=
  if m = .acc then .a :: writtenBy n else writtenBy n

theorem mem_footprint {f : StateField} {n : Mnemonic} {m : Mode} :
    f ∈ footprint n m ↔ f ∈ writtenBy n ∨ m = .acc ∧ f = .a := by
  unfold footprint
  split <;> simp_all [or_comm]

/-- Outside the column of a field in the table, the field is not in the footprint; for A the mode counts too. -/
theorem not_mem_footprint {f : StateField} {n : Mnemonic} {m : Mode} {writers : List Mnemonic} (hn : n ∉ writers)
    (column : ∀ k, f ∈ writtenBy k → k ∈ writers) (hm : f = .a → m ≠ .acc) : f ∉ footprint n m := by
  rw [mem_footprint]
  rintro (hf | ⟨hacc, hf⟩)
  · exact hn (column n hf)
  · exact hm hf hacc

/-- `t` holds what `s` holds in every field outside those listed. -/
def SameOff (fs : List StateField) (s t : State) : Prop := ∀ f ∉ fs, f.same s t

namespace SameOff

theorem mono {fs gs : List StateField} {s t : State} (h : SameOff fs s t) (hg : fs ⊆ gs) : SameOff gs s t :=
  fun f hf => h f fun hm => hf (hg hm)

theorem trans {fs : List StateField} {s t u : State} (h : SameOff fs s t) (k : SameOff fs t u) : SameOff fs s u := by
  intro f hf
  have hst := h f hf
  have htu := k f hf
  cases f <;> exact Eq.trans htu hst

/-- States that differ in memory and history only agree on every field. -/
theorem of_mem_history {fs : List StateField} {s t : State}
    (h : t = { s with mem := t.mem, history := t.history }) : SameOff fs s t := by
  intro f _
  rw [h]
  cases f <;> rfl

/-- A write of the operand a mode resolves to changes no field, or A in the accumulator mode. -/
theorem opWrite {n : Mnemonic} {r t u : State} {m : Mode} {v : Byte}
    (h : t.opWrite (r.resolve m).1 v = some u) : SameOff (footprint n m) t u := by
  rcases State.opWrite_cases h with ⟨ho, rfl⟩ | ⟨ea, -, rfl⟩
  · have hm : m = .acc := by cases m <;> first | rfl | cases ho
    intro f hf
    rw [mem_footprint] at hf
    cases f <;> simp_all [StateField.same]
  · exact of_mem_history rfl

/-- An instruction that reads its operand changes what is done with the byte read. -/
theorem reading {fs : List StateField} {m : Mode} {s t : State} {k : Byte → State → State}
    (hk : ∀ v u, u.flags = s.flags → SameOff fs u (k v u)) (h : Machine.reading m s k = .next t) :
    SameOff fs s t := by
  obtain ⟨v, u, hv, rfl⟩ := reading_next h
  have hu := State.readOperand_snd_eq hv
  exact (of_mem_history (by rw [hu])).trans (hk v u (by rw [hu]))

theorem storing {n : Mnemonic} {m : Mode} {s t : State} {v : Byte} (h : Machine.storing m v s = .next t) :
    SameOff (footprint n m) s t :=
  (of_mem_history (by rw [State.resolve_snd_eq])).trans (opWrite (storing_next h))

/-- A read-modify-write changes its operand and what it does with the flags. -/
theorem modifying {n : Mnemonic} {m : Mode} {s t : State} {f : Byte → Flags → Byte} {g : Byte → Flags → Flags}
    (hg : ∀ v u, u.flags = s.flags → SameOff (writtenBy n) u (u.setFlags (g v s.flags)))
    (h : Machine.modifying m s f g = .next t) : SameOff (footprint n m) s t := by
  obtain ⟨v, u, w, hv, hw, rfl⟩ := modifying_next h
  have hu := State.readOperand_snd_eq hv
  have hflags : w.flags = s.flags := by
    rcases State.opWrite_cases hw with ⟨-, rfl⟩ | ⟨ea, -, rfl⟩ <;> (rw [hu]; rfl)
  exact ((of_mem_history (by rw [hu])).trans (opWrite hw)).trans
    ((hg v w hflags).mono fun _ hf => mem_footprint.2 (.inl hf))

/-- A jump changes what is done with its target. -/
theorem targeting {fs : List StateField} {m : Mode} {s t : State} {k : Word → State → State}
    (hk : ∀ w u, SameOff fs u (k w u)) (h : Machine.targeting m s k = .next t) : SameOff fs s t := by
  obtain ⟨w, -, rfl⟩ := targeting_next h
  exact (of_mem_history (by rw [State.resolve_snd_eq])).trans (hk w _)

theorem next {fs : List StateField} {s t u : State} (h : (Host.Outcome.next u : Result) = .next t)
    (hu : SameOff fs s u) : SameOff fs s t := by
  injection h with h
  exact h ▸ hu

/-- The thirteen fields at once. -/
theorem sameOff_iff {fs : List StateField} {s t : State} :
    SameOff fs s t ↔ (.a ∉ fs → t.a = s.a) ∧ (.x ∉ fs → t.x = s.x) ∧ (.y ∉ fs → t.y = s.y) ∧
      (.sp ∉ fs → t.sp = s.sp) ∧ (.pc ∉ fs → t.pc = s.pc) ∧ (.run ∉ fs → t.run = s.run) ∧
      (.n ∉ fs → t.flags.n = s.flags.n) ∧ (.v ∉ fs → t.flags.v = s.flags.v) ∧
      (.b ∉ fs → t.flags.b = s.flags.b) ∧ (.d ∉ fs → t.flags.d = s.flags.d) ∧
      (.i ∉ fs → t.flags.i = s.flags.i) ∧ (.z ∉ fs → t.flags.z = s.flags.z) ∧
      (.c ∉ fs → t.flags.c = s.flags.c) := by
  constructor
  · intro h
    exact ⟨h .a, h .x, h .y, h .sp, h .pc, h .run, h .n, h .v, h .b, h .d, h .i, h .z, h .c⟩
  · rintro ⟨ha, hx, hy, hsp, hpc, hrun, hn, hv, hb, hd, hi, hz, hc⟩ f
    cases f <;> assumption

end SameOff

/-- Every meaning leaves the fields outside its footprint as they were. -/
theorem meaning_sameOff {n : Mnemonic} {m : Mode} {s t : State} (h : meaning n m s = .next t) :
    SameOff (footprint n m) s t := by
  have widen (k : SameOff (writtenBy n) s t) : SameOff (footprint n m) s t :=
    k.mono fun _ hf => mem_footprint.2 (.inl hf)
  cases n
  case sta | stx | sty => exact .storing h
  case asl | lsr | rol | ror | inc | dec =>
    simp only [meaning, semAsl, semLsr, semRol, semRor, semInc, semDec] at h
    refine .modifying (fun v u hu => ?_) h
    simp [SameOff.sameOff_iff, writtenBy, hu, Flags.setNZ, Flags.setC]
  case bcc | bcs | beq | bne | bmi | bpl | bvc | bvs =>
    refine widen (.reading (fun v u _ => ?_) h)
    split <;> simp [SameOff.sameOff_iff, writtenBy]
  case adc | sbc =>
    refine widen (.reading (fun v u hu => ?_) h)
    simp [SameOff.sameOff_iff, writtenBy, hu, Flags.afterAdd]
  case cmp | cpx | cpy | bit =>
    refine widen (.reading (fun v u hu => ?_) h)
    simp [SameOff.sameOff_iff, writtenBy, hu, Flags.compare, Flags.bitTest]
  case and | ora | eor | lda | ldx | ldy =>
    refine widen (.reading (fun v u _ => ?_) h)
    simp [SameOff.sameOff_iff, writtenBy, State.loadA, State.loadX, State.loadY, Flags.setNZ]
  case jmp | jsr =>
    simp only [meaning, semJmp] at h
    refine widen (.targeting (fun w u => ?_) h)
    simp [SameOff.sameOff_iff, writtenBy]
  -- The rest are register updates, pushes and pulls: no operand.
  all_goals
    refine widen (.next h ?_)
    simp [SameOff.sameOff_iff, writtenBy, State.loadA, State.loadX, State.loadY, Flags.setNZ, Flags.setC,
      Flags.setV, Flags.setD, Flags.setI]

/-- Every instruction leaves the fields outside its footprint as they were. -/
theorem exec_sameOff {i : Instr} {s t : State} (h : exec i s = .next t) :
    SameOff (footprint i.mnemonic i.mode) s t := by
  by_cases hu : i.mnemonic = .unimplemented
  · obtain ⟨opcode, rfl⟩ := Instr.eq_unimplemented hu
    refine .next h ?_
    simp [SameOff.sameOff_iff, State.raiseUnimplemented, mem_footprint, Instr.mnemonic, writtenBy]
  · rw [exec_eq_meaning hu] at h
    exact meaning_sameOff h

/-- Settles O49: the columns of A, X, Y and SP in the table. -/
theorem registersChangeOnlyUnderTheirWriters : Obligations.RegistersChangeOnlyUnderTheirWriters := by
  intro i s t h
  have frame := exec_sameOff h
  refine ⟨fun hn hm => frame .a (not_mem_footprint hn ?_ fun _ => hm),
    fun hn => frame .x (not_mem_footprint hn ?_ nofun), fun hn => frame .y (not_mem_footprint hn ?_ nofun),
    fun hn => frame .sp (not_mem_footprint hn ?_ nofun)⟩
  all_goals
    intro n
    cases n <;> simp [writtenBy]

/-- Settles O50: the columns of the seven flags in the table. -/
theorem flagsChangeOnlyUnderTheirWriters : Obligations.FlagsChangeOnlyUnderTheirWriters := by
  intro i s t h
  have frame := exec_sameOff h
  refine ⟨fun hn => ⟨frame .n (not_mem_footprint hn ?_ nofun), frame .z (not_mem_footprint hn ?_ nofun)⟩,
    fun hn => frame .v (not_mem_footprint hn ?_ nofun), fun hn => frame .b (not_mem_footprint hn ?_ nofun),
    fun hn => frame .d (not_mem_footprint hn ?_ nofun), fun hn => frame .i (not_mem_footprint hn ?_ nofun),
    fun hn => frame .c (not_mem_footprint hn ?_ nofun)⟩
  all_goals
    intro n
    cases n <;> simp [writtenBy]

/-- Only the sentinel changes the run state (R32). -/
theorem exec_run {i : Instr} {s t : State} (hi : i.mnemonic ≠ .unimplemented) (h : exec i s = .next t) :
    t.run = s.run := by
  refine exec_sameOff h .run (not_mem_footprint (writers := [.unimplemented]) (by simpa using hi) ?_ nofun)
  intro n
  cases n <;> simp [writtenBy]

/-- Settles O51: the columns of PC and the run state in the table; `Progress` keeps the break count and the
parameters. -/
theorem controlStateChangesOnlyUnderItsWriters : Obligations.ControlStateChangesOnlyUnderItsWriters := by
  intro i s t h
  have progress := exec_progress h
  refine ⟨fun hn => exec_sameOff h .pc (not_mem_footprint hn ?_ nofun), fun hi => exec_run hi h,
    progress.breakCount_eq, progress.params_eq⟩
  intro n
  cases n <;> simp [writtenBy]

end Sys2Proof.Machine
end

section
/-! PROOFS. 10_state.md R32 and the invariant: an ended machine has no step, and every step of a running one keeps
the invariant. -/

namespace Sys2Proof.Machine

theorem step_halted {s : State} (h : s.run = .halted) : step s = .fault .engineHalted := by
  simp only [step, h]

theorem step_faulted {s : State} {opcode : Byte} {opAddr : Word} (h : s.run = .faulted opcode opAddr) :
    step s = .fault (.unimplementedOpcode opcode opAddr) := by
  simp only [step, h]

theorem step_of_not_running {s : State} (h : s.run ≠ .running) : ∃ r, step s = .fault r := by
  cases hr : s.run with
  | running => exact absurd hr h
  | halted => exact ⟨_, step_halted hr⟩
  | faulted opcode opAddr => exact ⟨_, step_faulted hr⟩

theorem runLoop_of_not_running {s : State} (h : s.run ≠ .running) (n : Nat) : runLoop n s = s := by
  obtain ⟨r, hr⟩ := step_of_not_running h
  cases n with
  | zero => rfl
  | succ n => rw [runLoop_succ, hr]

/-- Settles O17. -/
theorem stoppedEngineHasNoStep : Obligations.StoppedEngineHasNoStep :=
  fun _ => ⟨step_halted, fun _ _ => step_faulted, runLoop_of_not_running⟩

/-- A launch on a canonical memory has the invariant: the break count is 0 (R400). -/
theorem State.inv_launch {a x y sp : Byte} {pc : Word} {f : Flags} {m : Memory} {p : Params} (h : Memory.wf m) :
    (State.launch a x y sp pc f m p).Inv :=
  ⟨h, Nat.zero_le p.maxBreakCount⟩

/-- Settles O55: reset is one of the launches. -/
theorem invariantHoldsAtLaunch : Obligations.InvariantHoldsAtLaunch :=
  ⟨State.inv_launch reset_mem_wf, fun _ _ _ _ _ _ _ _ => State.inv_launch⟩

/-! ### The step -/

/-- An opcode byte decodes to a well-formed instruction whose first byte it is. -/
theorem decodeInstr_encodes (opcode b1 b2 : Byte) :
    (encode (decodeInstr opcode b1 b2)).head? = some opcode ∧ WellFormed (decodeInstr opcode b1 b2) = true := by
  have row := tableEntry_encodesAt opcode
  unfold decodeInstr
  cases he : tableEntry opcode with
  | op0 i =>
    rw [he] at row
    exact ⟨by rw [row.1]; rfl, row.2⟩
  | op1 mk =>
    rw [he] at row
    exact ⟨by rw [(row b1).1]; rfl, (row b1).2⟩
  | op2 mk =>
    rw [he] at row
    exact ⟨by rw [(row _).1]; rfl, (row _).2⟩
  | unimpl =>
    have sentinel := tableEntry_isUnimpl opcode
    rw [he] at sentinel
    exact ⟨rfl, sentinel.symm⟩

/-- The sentinel is decoded from the sentinel bytes only, and carries the byte (R65). -/
theorem decodeInstr_unimplemented {opcode b1 b2 : Byte}
    (h : (decodeInstr opcode b1 b2).mnemonic = .unimplemented) :
    decodeInstr opcode b1 b2 = .unimplemented opcode ∧ isSentinel opcode = true := by
  obtain ⟨code, hi⟩ := Instr.eq_unimplemented h
  have row := decodeInstr_encodes opcode b1 b2
  rw [hi] at row
  obtain ⟨hcode, hwf⟩ := row
  cases Option.some.inj hcode
  exact ⟨hi, hwf⟩

/-- The fetch that halts is one of 0x00 with the break count at the threshold or over it (R70). -/
theorem State.breakHalts_iff {s : State} {opcode : Byte} :
    s.breakHalts opcode = true ↔ opcode = breakOpcode ∧ s.params.maxBreakCount ≤ s.breakCount := by
  simp [State.breakHalts]

/-- A fetch that does not halt leaves the break count within the threshold (R70). -/
theorem State.afterOpcode_breakCount_le {s : State} (h : s.breakHalts (s.peek s.pc) = false)
    (hs : s.breakCount ≤ s.params.maxBreakCount) : s.afterOpcode.breakCount ≤ s.params.maxBreakCount := by
  rw [State.afterOpcode_breakCount]
  split
  · rename_i hbrk
    rw [hbrk, State.breakHalts_break] at h
    simpa using h
  · exact hs

theorem State.inv_halting_fetch {s : State} (hwf : Memory.wf s.mem) (hcount : s.breakCount ≤ s.params.maxBreakCount)
    (h : s.breakHalts (s.peek s.pc) = true) :
    (((s.memRead s.pc).2.countBreak (s.peek s.pc)).setRun .halted).Inv := by
  obtain ⟨hop, hmax⟩ := State.breakHalts_iff.1 h
  rw [hop]
  exact ⟨hwf, congrArg (· + 1) (Nat.le_antisymm hcount hmax)⟩

/-- Executing a decoded instruction in `running` keeps the invariant: an instruction of R64 leaves the run state, and
the sentinel faults with PC past its byte (R301). -/
theorem exec_inv {u t : State} {opcode b1 b2 : Byte} (hwf : Memory.wf u.mem) (hrun : u.run = .running)
    (hcount : u.breakCount ≤ u.params.maxBreakCount) (h : exec (decodeInstr opcode b1 b2) u = .next t) : t.Inv := by
  have progress := exec_progress h
  refine ⟨progress.wf hwf, ?_⟩
  have hcount' : t.breakCount ≤ t.params.maxBreakCount := by
    rw [progress.breakCount_eq, progress.params_eq]
    exact hcount
  by_cases hn : (decodeInstr opcode b1 b2).mnemonic = .unimplemented
  · obtain ⟨hi, hsentinel⟩ := decodeInstr_unimplemented hn
    rw [hi] at h
    cases h
    exact ⟨hcount', hsentinel, (BitVec.sub_add_cancel u.pc 1).symm⟩
  · simpa only [State.runConsistent, exec_run hn h, hrun] using hcount'

/-- Settles O56, by the two ends of a step: a halting fetch, or an instruction executed past its bytes. -/
theorem everyStepKeepsTheInvariant : Obligations.EveryStepKeepsTheInvariant := by
  intro s t ⟨hwf, hconsistent⟩ h
  obtain ⟨hrun, step⟩ := step_cases h
  have hcount : s.breakCount ≤ s.params.maxBreakCount := by
    simpa only [State.runConsistent, hrun] using hconsistent
  obtain ⟨hb, rfl⟩ | ⟨hb, hexec⟩ := step
  · exact State.inv_halting_fetch hwf hcount hb
  · have fetched := Progress.fetchBytes (operandCount (s.peek s.pc)) s.afterOpcode
    refine exec_inv (fetched.wf (by rwa [State.afterOpcode_mem])) ?_ ?_ hexec
    · rw [State.fetchBytes_snd_eq]
      exact (State.afterOpcode_run s).trans hrun
    · rw [fetched.breakCount_eq, fetched.params_eq, State.afterOpcode_params]
      exact State.afterOpcode_breakCount_le hb hcount

end Sys2Proof.Machine
end

section
/-! PROOFS. 10_state.md R31: the stored B flag is observable by no instruction. The proof runs two machines side by
side, `s` and `s.withB b`: every operation commutes with storing B, until an instruction decodes all seven flags. -/

namespace Sys2Proof.Machine

/-- The machine with `b` as its stored B flag. -/
def State.withB (s : State) (b : Bool) : State := s.setFlags { s.flags with b := b }

/-- States that differ at most in B are a state and the same with another B stored. -/
theorem sameButB_iff {s t : State} : sameButB s t ↔ ∃ b, t = s.withB b :=
  ⟨fun h => ⟨_, h⟩, fun ⟨_, h⟩ => h ▸ rfl⟩

theorem sameButB_withB (s : State) (b : Bool) : sameButB s (s.withB b) := rfl

/-! ### The operations commute with storing B -/

@[simp] theorem State.withB_pc (s : State) (b : Bool) : (s.withB b).pc = s.pc := rfl
@[simp] theorem State.withB_peek (s : State) (b : Bool) (addr : Word) : (s.withB b).peek addr = s.peek addr := rfl

/-- The pushed byte has bit 4 set whatever B holds (R28). -/
theorem State.withB_pushed (s : State) (b : Bool) : (s.withB b).flags.pushed = s.flags.pushed := by
  show Flags.pushed { s.flags with b := b } = s.flags.pushed
  obtain ⟨n, v, b', d, i, z, c⟩ := s.flags
  revert n v b' d i z c b
  decide

theorem State.withB_resolve (s : State) (b : Bool) (m : Mode) :
    (s.withB b).resolve m = ((s.resolve m).1, (s.resolve m).2.withB b) := by
  cases m <;> rfl

theorem State.withB_opRead (s : State) (b : Bool) (o : Operand) :
    (s.withB b).opRead o = (s.opRead o).map fun r => (r.1, r.2.withB b) := by
  cases o <;> rfl

theorem State.withB_opWrite (s : State) (b : Bool) (o : Operand) (v : Byte) :
    (s.withB b).opWrite o v = (s.opWrite o v).map (State.withB · b) := by
  cases o <;> rfl

theorem State.withB_readOperand (s : State) (b : Bool) (m : Mode) :
    (s.withB b).readOperand m = (s.readOperand m).map fun r => (r.1, r.2.withB b) := by
  simp only [State.readOperand, State.withB_resolve, State.withB_opRead]

/-! ### The four shapes -/

theorem reading_sameButB {m : Mode} {s : State} {b : Bool} {k k' : Byte → State → State}
    (hk : ∀ v u, sameButB (k v u) (k' v (u.withB b))) :
    outcomesSameButB (reading m s k) (reading m (s.withB b) k') := by
  unfold reading
  rw [State.withB_readOperand]
  cases s.readOperand m with
  | none => rfl
  | some r => exact hk r.1 r.2

theorem storing_sameButB (m : Mode) (s : State) (b : Bool) (v : Byte) :
    outcomesSameButB (storing m v s) (storing m v (s.withB b)) := by
  unfold storing
  rw [State.withB_resolve, State.withB_opWrite]
  cases (s.resolve m).2.opWrite (s.resolve m).1 v with
  | none => rfl
  | some u => exact sameButB_withB u b

/-- A read-modify-write whose two functions do not look at B. -/
theorem modifying_sameButB {m : Mode} {s : State} {b : Bool} {f : Byte → Flags → Byte}
    {g : Byte → Flags → Flags}
    (hf : ∀ v, f v (s.withB b).flags = f v s.flags)
    (hg : ∀ v, g v (s.withB b).flags = { g v s.flags with b := b }) :
    outcomesSameButB (modifying m s f g) (modifying m (s.withB b) f g) := by
  unfold modifying
  rw [State.withB_readOperand, State.withB_resolve]
  cases s.readOperand m with
  | none => rfl
  | some r =>
    simp only [Option.map_some, State.withB_opWrite, hf, hg]
    cases r.2.opWrite (s.resolve m).1 (f r.1 s.flags) with
    | none => rfl
    | some u => exact sameButB_withB (u.setFlags (g r.1 s.flags)) b

theorem targeting_sameButB {m : Mode} {s : State} {b : Bool} {k : Word → State → State}
    (hk : ∀ w u, sameButB (k w u) (k w (u.withB b))) :
    outcomesSameButB (targeting m s k) (targeting m (s.withB b) k) := by
  unfold targeting
  rw [State.withB_resolve]
  cases opTarget (s.resolve m).1 with
  | none => rfl
  | some w => exact hk w _

/-! ### The instructions -/

/-- BRK pushes the status with bit 4 set, so what it leaves in memory does not depend on B (R302). -/
theorem State.withB_interruptEntry (s : State) (b : Bool) (vector : Word) :
    (s.withB b).interruptEntry vector = (s.interruptEntry vector).withB b := by
  rw [State.interruptEntry_eq, State.withB_pushed]
  rfl

/-- The move of PC by a branch taken on a condition that is no reading of B (R178). -/
theorem State.sameButB_jumpIf (u : State) (cond : Bool) (offset : Word) (b : Bool) :
    sameButB (if cond then u.setPc (u.pc + offset) else u)
      (if cond then (u.withB b).setPc ((u.withB b).pc + offset) else u.withB b) := by
  cases cond <;> rfl

/-- The outcomes of a meaning differ at most in B; only PHP and BRK look at the status byte, through `State.withB_pushed`. -/
theorem meaning_sameButB (n : Mnemonic) (m : Mode) (s : State) (b : Bool) :
    outcomesSameButB (meaning n m s) (meaning n m (s.withB b)) := by
  cases n
  case php =>
    show sameButB (s.push s.flags.pushed) ((s.withB b).push (s.withB b).flags.pushed)
    rw [State.withB_pushed]
    exact sameButB_withB (s.push s.flags.pushed) b
  case brk =>
    show sameButB _ ((s.withB b).interruptEntry s.params.irqVector)
    rw [State.withB_interruptEntry]
    exact sameButB_withB _ b
  case sta | stx | sty => exact storing_sameButB m s b _
  case asl | lsr | rol | ror | inc | dec =>
    simp only [meaning, semAsl, semLsr, semRol, semRor, semInc, semDec]
    exact modifying_sameButB (fun _ => rfl) (fun _ => rfl)
  case jmp | jsr =>
    simp only [meaning, semJmp]
    exact targeting_sameButB fun _ _ => rfl
  case bcc | bcs | beq | bne | bmi | bpl | bvc | bvs => exact reading_sameButB fun v u => u.sameButB_jumpIf _ _ b
  case adc | sbc | and | ora | eor | cmp | cpx | cpy | bit | lda | ldx | ldy =>
    exact reading_sameButB fun _ _ => rfl
  -- The rest compute every field without a reading of B; PLP and RTI decode the same seven flags.
  all_goals exact rfl

theorem exec_sameButB (i : Instr) (s : State) (b : Bool) : outcomesSameButB (exec i s) (exec i (s.withB b)) := by
  by_cases hu : i.mnemonic = .unimplemented
  · obtain ⟨opcode, rfl⟩ := Instr.eq_unimplemented hu
    exact sameButB_withB (s.raiseUnimplemented opcode) b
  · rw [exec_eq_meaning hu, exec_eq_meaning hu]
    exact meaning_sameButB i.mnemonic i.mode s b

/-! ### The fetch and the step -/

theorem State.withB_countBreak (s : State) (b : Bool) (opcode : Byte) :
    (s.withB b).countBreak opcode = (s.countBreak opcode).withB b := by
  unfold State.countBreak
  split <;> rfl

theorem State.withB_afterOpcode (s : State) (b : Bool) : (s.withB b).afterOpcode = s.afterOpcode.withB b :=
  congrArg (State.setPc · (s.pc + 1)) (State.withB_countBreak (s.memRead s.pc).2 b (s.peek s.pc))

theorem State.withB_fetchBytes (s : State) (b : Bool) (n : Nat) :
    State.fetchBytes n (s.withB b) = ((State.fetchBytes n s).1, (State.fetchBytes n s).2.withB b) := by
  induction n generalizing s with
  | zero => rfl
  | succ n ih =>
    rw [State.fetchBytes_succ, show (s.withB b).nextByte.2 = s.nextByte.2.withB b from rfl, ih]
    rfl

/-- In `running` both machines halt at the fetch, or execute the same instruction. -/
theorem step_sameButB_of_running {s : State} (b : Bool) (hr : s.run = .running) :
    outcomesSameButB (step s) (step (s.withB b)) := by
  rw [step_running hr, step_running (s := s.withB b) hr]
  cases hb : s.breakHalts (s.peek s.pc)
  · rw [State.fetch_runs hb, State.fetch_runs (s := s.withB b) hb]
    simp only [State.withB_pc, State.withB_peek, State.withB_afterOpcode, State.withB_fetchBytes]
    exact exec_sameButB _ _ b
  · rw [State.fetch_halts hb, State.fetch_halts (s := s.withB b) hb]
    show sameButB _ ((((s.memRead s.pc).2.withB b).countBreak (s.peek s.pc)).setRun .halted)
    rw [State.withB_countBreak]
    exact sameButB_withB (((s.memRead s.pc).2.countBreak (s.peek s.pc)).setRun .halted) b

/-- Settles O60: an ended machine answers by its run state, a running one by `step_sameButB_of_running`. -/
theorem storedBFlagIsUnobservable : Obligations.StoredBFlagIsUnobservable := by
  intro s t h
  obtain ⟨b, rfl⟩ := sameButB_iff.1 h
  cases hr : s.run with
  | running => exact step_sameButB_of_running b hr
  | halted =>
    rw [step_halted hr, step_halted (s := s.withB b) hr]
    rfl
  | faulted opcode opAddr =>
    rw [step_faulted hr, step_faulted (s := s.withB b) hr]
    rfl

end Sys2Proof.Machine
end

section
/-! PROOFS. 20_memory.md: the accesses one by one. A byte access is one event (R40), the addresses of one cell share
its byte (R45, R46), a 16-bit read takes its low byte first (R52), and the stack lies in its page (R50, R51). -/

namespace Sys2Proof.Machine

/-- Settles O4: each access is its definition. -/
theorem everyAccessIsOneEvent : Obligations.EveryAccessIsOneEvent := fun _ _ _ => ⟨rfl, rfl⟩

/-! ### The cells of the device -/

/-- A poke of a peripheral changes no cell (log 7). -/
theorem memAfterPoke_of_peripheral {device : List Region} {addr : Word} (h : deviceCell device addr = none)
    (m : Memory) (v : Byte) : memAfterPoke device m addr v = m := by
  simp only [memAfterPoke, h]

/-- Every address of the cell written reads the byte written. -/
theorem State.peek_memWrite_of_same_cell {s : State} {addr other cell : Word} (v : Byte) (h : Memory.wf s.mem)
    (ha : deviceCell s.params.device addr = some cell) (ho : deviceCell s.params.device other = some cell) :
    (s.memWrite addr v).peek other = v := by
  rw [State.peek_memWrite_of_cell h ho, if_pos ha]

/-- Settles O5. -/
theorem addressesOfOneCellShareItsByte : Obligations.AddressesOfOneCellShareItsByte := by
  intro s addr other v hwf
  refine ⟨fun cell ha ho => ?_, State.memByte_memWrite_of_ne hwf, fun hp => memAfterPoke_of_peripheral hp s.mem v⟩
  have hread := State.peek_memWrite_of_same_cell v hwf ha ho
  exact ⟨hread, (State.memByte_eq_of_cell (s := s.memWrite addr v) ho).trans (congrArg some hread)⟩

/-! ### The vectors -/

/-- The host's poke leaves in memory what a write of the machine leaves, without the event. -/
@[simp] theorem State.hostPoke_mem (s : State) (addr : Word) (v : Byte) :
    (s.hostPoke addr v).mem = memAfterPoke s.params.device s.mem addr v := rfl
@[simp] theorem State.hostPoke_params (s : State) (addr : Word) (v : Byte) :
    (s.hostPoke addr v).params = s.params := rfl

/-- What a FLAT memory gives after the host's poke. -/
theorem State.peek_hostPoke_flat {s : State} {addr j : Word} {v : Byte} (hflat : s.params.device = [])
    (hwf : Memory.wf s.mem) : (s.hostPoke addr v).peek j = if addr = j then v else s.peek j := by
  rw [State.peek_flat (s := s.hostPoke addr v) hflat, State.hostPoke_mem, read_memAfterPoke hwf,
    State.peek_flat hflat, hflat, deviceCell_flat]
  simp only [Option.some.injEq]

/-- The two bytes of a vector on FLAT, after the host stored a handler there (R53). -/
theorem State.peek_writeVector_flat {s : State} (vector handler : Word) (hflat : s.params.device = [])
    (hwf : Memory.wf s.mem) : (s.writeVector vector handler).peek vector = loByte handler ∧
      (s.writeVector vector handler).peek (vector + 1) = hiByte handler := by
  have hne : vector + 1 ≠ vector := by simp
  have hwf' : Memory.wf (s.hostPoke vector (loByte handler)).mem := wf_memAfterPoke hwf
  simp only [State.writeVector, State.peek_hostPoke_flat (s := s.hostPoke vector _) hflat hwf',
    State.peek_hostPoke_flat hflat hwf, if_neg hne, if_true, and_self]

/-- Settles O6: the two reads by definition; on FLAT they find the two bytes the host stored. -/
theorem vectorsAreLittleEndian : Obligations.VectorsAreLittleEndian := by
  refine ⟨fun _ _ => rfl, fun s vector handler hflat hwf => ?_⟩
  obtain ⟨hlo, hhi⟩ := State.peek_writeVector_flat vector handler hflat hwf
  have hcell : deviceCell (s.writeVector vector handler).params.device (vector + 1) = some (vector + 1) := by
    show deviceCell s.params.device (vector + 1) = _
    rw [hflat, deviceCell_flat]
  rw [State.memRead16, State.readPair_fst, State.peek_record_of_cell _ hcell, hlo, hhi, hiLo_bytes]

/-! ### The stack -/

/-- Settles O7: Push and Pull by definition, with the two wraps of SP. -/
theorem pushAndPullFollowTheStackRules : Obligations.PushAndPullFollowTheStackRules := by
  intro s v
  obtain ⟨hlow, hhigh⟩ := stackAddr_in_page s.sp
  refine ⟨rfl, rfl, ?_, ?_, hlow, hhigh⟩
  · rw [State.push_sp]
    split
    · rename_i h; rw [h]; rfl
    · rfl
  · rw [State.pull_sp]
    split
    · rename_i h; rw [h]; rfl
    · rfl

end Sys2Proof.Machine
end

section
/-! PROOFS. 20_memory.md R48, 40_addressing_modes.md R102: reading an operand adds read events and does nothing
else. -/

namespace Sys2Proof.Machine

/-- `t` is `s` with read events added to its history. -/
def ReadsOnly (s t : State) : Prop :=
  ∃ new : List Access, t = { s with history := new ++ s.history } ∧ ∀ e ∈ new, ∃ addr b, e = .read addr b

namespace ReadsOnly

theorem refl (s : State) : ReadsOnly s s := ⟨[], rfl, nofun⟩

theorem memRead (s : State) (addr : Word) : ReadsOnly s (s.memRead addr).2 :=
  ⟨[.read addr (s.peek addr)], rfl, fun _ he => ⟨addr, s.peek addr, List.mem_singleton.1 he⟩⟩

theorem trans {s t u : State} (h : ReadsOnly s t) (k : ReadsOnly t u) : ReadsOnly s u := by
  obtain ⟨first, rfl, hfirst⟩ := h
  obtain ⟨last, rfl, hlast⟩ := k
  refine ⟨last ++ first, by simp, fun e he => ?_⟩
  exact (List.mem_append.1 he).elim (hlast e) (hfirst e)

theorem resolve (s : State) (m : Mode) : ReadsOnly s (s.resolve m).2 := by
  obtain h | ⟨l, r, h⟩ := State.resolve_cases s m <;> rw [h]
  · exact refl s
  · exact (memRead s l).trans (memRead _ r)

theorem readOperand {s t : State} {m : Mode} {v : Byte} (h : s.readOperand m = some (v, t)) : ReadsOnly s t := by
  obtain ⟨rfl, -⟩ | ⟨ea, -, -, rfl⟩ := State.opRead_cases h
  · exact resolve s m
  · exact (resolve s m).trans (memRead _ ea)

end ReadsOnly

/-- Settles O24. -/
theorem operandReadsChangeOnlyTheHistory : Obligations.OperandReadsChangeOnlyTheHistory :=
  fun _ _ _ _ => ReadsOnly.readOperand

end Sys2Proof.Machine
end

section
/-! PROOFS. 20_memory.md R48, 40_addressing_modes.md R120: where every instruction stores, said once as a table; the
statements about what keeps memory are its rows. -/

namespace Sys2Proof.Machine

/-- `m'` is `m` after one poke at each of the addresses, in order. -/
def PokedAt (device : List Region) : List Word → Memory → Memory → Prop
  | [], m, m' => m' = m
  | addr :: addrs, m, m' => ∃ v, PokedAt device addrs (memAfterPoke device m addr v) m'

theorem pokedAt_nil {device : List Region} {m m' : Memory} : PokedAt device [] m m' ↔ m' = m := Iff.rfl

theorem pokedAt_cons {device : List Region} {addr : Word} {addrs : List Word} {m m' : Memory} :
    PokedAt device (addr :: addrs) m m' ↔ ∃ v, PokedAt device addrs (memAfterPoke device m addr v) m' := Iff.rfl

/-- What memory holds depends on the cells and the device only. -/
theorem State.memByte_congr {s t : State} (hm : t.mem = s.mem) (hp : t.params = s.params) (addr : Word) :
    t.memByte addr = s.memByte addr := by
  simp only [State.memByte, hm, hp]

/-- Pokes leave every cell but those of their addresses. -/
theorem State.memByte_of_pokedAt {addrs : List Word} {s t : State} {addr : Word} (hwf : Memory.wf s.mem)
    (hp : t.params = s.params) (h : PokedAt s.params.device addrs s.mem t.mem)
    (hne : ∀ a ∈ addrs, deviceCell s.params.device addr ≠ deviceCell s.params.device a) :
    t.memByte addr = s.memByte addr := by
  induction addrs generalizing s with
  | nil => exact State.memByte_congr h hp addr
  | cons a addrs ih =>
    obtain ⟨v, h⟩ := h
    calc t.memByte addr
        = (s.memWrite a v).memByte addr :=
          ih (State.wf_memWrite hwf) hp h fun b hb => hne b (List.mem_cons_of_mem a hb)
      _ = s.memByte addr := State.memByte_memWrite_of_ne hwf (hne a List.mem_cons_self)

/-- The address an operand is written at; A is no address (R103). -/
def Operand.writeAddrs : Operand → List Word
  | .mem ea => [ea]
  | .none | .acc | .imm _ | .rel _ | .ptr _ => []

/-- The addresses an instruction stores to, in order (R48, R50, R201, R302). -/
def storeAddrs (n : Mnemonic) (m : Mode) (s : State) : List Word :=
  match n with
  | .sta | .stx | .sty | .asl | .lsr | .rol | .ror | .inc | .dec => (s.resolve m).1.writeAddrs
  | .pha | .php => [stackAddr s.sp]
  | .jsr => [stackAddr s.sp, stackAddr (s.sp - 1)]
  | .brk => [stackAddr s.sp, stackAddr (s.sp - 1), stackAddr (s.sp - 2)]
  | _ => []

/-! ### The four shapes -/

@[simp] theorem State.resolve_mem (s : State) (m : Mode) : (s.resolve m).2.mem = s.mem := by
  rw [State.resolve_snd_eq]
@[simp] theorem State.resolve_params (s : State) (m : Mode) : (s.resolve m).2.params = s.params := by
  rw [State.resolve_snd_eq]
@[simp] theorem State.resolve_sp (s : State) (m : Mode) : (s.resolve m).2.sp = s.sp := by
  rw [State.resolve_snd_eq]

theorem State.readOperand_mem {s t : State} {m : Mode} {v : Byte} (h : s.readOperand m = some (v, t)) :
    t.mem = s.mem := by
  rw [State.readOperand_snd_eq h]
theorem State.readOperand_params {s t : State} {m : Mode} {v : Byte} (h : s.readOperand m = some (v, t)) :
    t.params = s.params := by
  rw [State.readOperand_snd_eq h]

/-- `OpWrite` pokes at the operand's address, if it has one. -/
theorem State.opWrite_pokedAt {s t : State} {o : Operand} {v : Byte} (h : s.opWrite o v = some t) :
    PokedAt s.params.device o.writeAddrs s.mem t.mem := by
  obtain ⟨rfl, rfl⟩ | ⟨ea, rfl, rfl⟩ := State.opWrite_cases h
  · rfl
  · exact ⟨v, rfl⟩

theorem State.operand_of_opWrite {s t : State} {o : Operand} {v : Byte} (h : s.opWrite o v = some t) :
    o = .acc ∨ ∃ ea, o = .mem ea :=
  (State.opWrite_cases h).imp (fun ⟨ho, _⟩ => ho) fun ⟨ea, ho, _⟩ => ⟨ea, ho⟩

theorem reading_mem {m : Mode} {s t : State} {k : Byte → State → State} (h : reading m s k = .next t)
    (hk : ∀ v u, (k v u).mem = u.mem) : t.mem = s.mem := by
  obtain ⟨v, u, hu, rfl⟩ := reading_next h
  rw [hk, State.readOperand_mem hu]

theorem storing_pokedAt {m : Mode} {s t : State} {v : Byte} (h : storing m v s = .next t) :
    PokedAt s.params.device (s.resolve m).1.writeAddrs s.mem t.mem := by
  simpa using State.opWrite_pokedAt (storing_next h)

theorem modifying_pokedAt {m : Mode} {s t : State} {f : Byte → Flags → Byte} {g : Byte → Flags → Flags}
    (h : modifying m s f g = .next t) : PokedAt s.params.device (s.resolve m).1.writeAddrs s.mem t.mem := by
  obtain ⟨v, u, w, hu, hw, rfl⟩ := modifying_next h
  have poked := State.opWrite_pokedAt hw
  rwa [State.readOperand_params hu, State.readOperand_mem hu] at poked

/-- A store to a memory operand is one write at its address. -/
theorem storing_of_mem {m : Mode} {s t : State} {v : Byte} {ea : Word} (hea : (s.resolve m).1 = .mem ea)
    (h : storing m v s = .next t) : t = (s.resolve m).2.memWrite ea v := by
  have hw := storing_next h
  rw [hea] at hw
  exact (Option.some.inj hw).symm

/-! ### The instructions -/

theorem pokedAt_of_next {device : List Region} {addrs : List Word} {m : Memory} {t u : State}
    (h : (Host.Outcome.next u : Result) = .next t) (hu : PokedAt device addrs m u.mem) :
    PokedAt device addrs m t.mem := by
  injection h with h
  exact h ▸ hu

/-- The entry sequence pokes the three stack slots (R302). -/
theorem State.interruptEntry_pokedAt (s : State) (vector : Word) :
    PokedAt s.params.device [stackAddr s.sp, stackAddr (s.sp - 1), stackAddr (s.sp - 2)] s.mem
      (s.interruptEntry vector).mem := by
  have hsp : s.sp - 2 = s.sp - 1 - 1 := (BitVec.sub_sub s.sp 1 1).symm
  rw [hsp]
  exact ⟨_, _, _, rfl⟩

/-- Every meaning stores where the table says, and nowhere else. -/
theorem meaning_pokedAt {n : Mnemonic} {m : Mode} {s t : State} (h : meaning n m s = .next t) :
    PokedAt s.params.device (storeAddrs n m s) s.mem t.mem := by
  cases n
  case sta | stx | sty => exact storing_pokedAt h
  case asl | lsr | rol | ror | inc | dec =>
    simp only [meaning, semAsl, semLsr, semRol, semRor, semInc, semDec] at h
    exact modifying_pokedAt h
  case bcc | bcs | beq | bne | bmi | bpl | bvc | bvs => exact reading_mem h fun v u => by split <;> rfl
  case adc | sbc | and | ora | eor | cmp | cpx | cpy | bit | lda | ldx | ldy =>
    exact reading_mem h fun _ _ => rfl
  case jmp =>
    simp only [meaning, semJmp] at h
    obtain ⟨w, -, rfl⟩ := targeting_next h
    exact State.resolve_mem s m
  case jsr =>
    simp only [meaning] at h
    obtain ⟨w, -, rfl⟩ := targeting_next h
    simp only [storeAddrs, pokedAt_cons, pokedAt_nil, State.setPc_mem, State.pushWord_mem, State.resolve_mem,
      State.resolve_params, State.resolve_sp]
    exact ⟨_, _, rfl⟩
  case pha | php => exact pokedAt_of_next h ⟨_, rfl⟩
  case brk => exact pokedAt_of_next h (State.interruptEntry_pokedAt s s.params.irqVector)
  case rts => exact pokedAt_of_next h s.pullWord_mem
  case rti => exact pokedAt_of_next h s.returnFromInterrupt_mem
  -- The rest are register updates and pulls.
  all_goals exact pokedAt_of_next h rfl

/-- Every instruction stores where the table says, and nowhere else. -/
theorem exec_pokedAt {i : Instr} {s t : State} (h : exec i s = .next t) :
    PokedAt s.params.device (storeAddrs i.mnemonic i.mode s) s.mem t.mem := by
  by_cases hu : i.mnemonic = .unimplemented
  · obtain ⟨opcode, rfl⟩ := Instr.eq_unimplemented hu
    cases h
    rfl
  · rw [exec_eq_meaning hu] at h
    exact meaning_pokedAt h

/-- Memory at an address of no cell stored to. -/
theorem exec_memByte {i : Instr} {s t : State} {addr : Word} (hwf : Memory.wf s.mem) (h : exec i s = .next t)
    (hne : ∀ a ∈ storeAddrs i.mnemonic i.mode s,
      deviceCell s.params.device addr ≠ deviceCell s.params.device a) : t.memByte addr = s.memByte addr :=
  State.memByte_of_pokedAt hwf (exec_progress h).params_eq (exec_pokedAt h) hne

/-- Settles O52: the empty rows of the table. -/
theorem nonStoringInstructionsKeepMemory : Obligations.NonStoringInstructionsKeepMemory := by
  intro i s t h hn
  have hrow : storeAddrs i.mnemonic i.mode s = [] := by
    revert hn
    cases i.mnemonic <;> simp [storeAddrs]
  have hmem : t.mem = s.mem := by
    simpa only [hrow, pokedAt_nil] using exec_pokedAt h
  exact ⟨hmem, State.memByte_congr hmem (exec_progress h).params_eq⟩

/-- Settles O54: the rows of the pushing instructions. -/
theorem pushesChangeOnlyTheirStackSlots : Obligations.PushesChangeOnlyTheirStackSlots := by
  intro i s t slots hwf h hslots addr hne
  have hrow : storeAddrs i.mnemonic i.mode s = slots := by
    obtain ⟨hn | hn, rfl⟩ | ⟨hn, rfl⟩ | ⟨hn, rfl⟩ := hslots <;> rw [hn] <;> rfl
  exact exec_memByte hwf h (hrow ▸ hne)

/-- What an instruction with a written operand wrote is A or a byte of memory (R103). -/
theorem exec_operandStore {i : Instr} {s t : State} (h : exec i s = .next t)
    (hn : i.mnemonic ∈ [Mnemonic.sta, .stx, .sty, .asl, .lsr, .rol, .ror, .inc, .dec]) :
    (s.resolve i.mode).1 = .acc ∨ ∃ ea, (s.resolve i.mode).1 = .mem ea := by
  rw [exec_eq_meaning (by rintro hu; simp [hu] at hn)] at h
  revert h hn
  generalize i.mode = m
  cases i.mnemonic <;> intro h hn
  case sta | stx | sty => exact State.operand_of_opWrite (storing_next h)
  case asl | lsr | rol | ror | inc | dec =>
    simp only [meaning, semAsl, semLsr, semRol, semRor, semInc, semDec] at h
    obtain ⟨_, _, _, -, hw, -⟩ := modifying_next h
    exact State.operand_of_opWrite hw
  all_goals simp at hn

/-- Settles O53: the rows of the instructions that write their operand. -/
theorem operandStoresChangeOnlyTheirCell : Obligations.OperandStoresChangeOnlyTheirCell := by
  intro i s t hwf h hn
  have hrow : storeAddrs i.mnemonic i.mode s = (s.resolve i.mode).1.writeAddrs := by
    revert hn
    cases i.mnemonic <;> simp [storeAddrs]
  refine ⟨fun ea hea addr hne => exec_memByte hwf h ?_, fun hacc addr => exec_memByte hwf h ?_,
    exec_operandStore h hn⟩
  · rw [hrow, hea]
    simpa [Operand.writeAddrs] using hne
  · rw [hrow, hacc]
    nofun

/-! ### A store and the next fetch -/

/-- A fetch at the address just written reads the byte written, where memory is behind it (R58). -/
theorem State.nextByte_memWrite {s : State} {ea : Word} (v : Byte) (hwf : Memory.wf s.mem)
    (hcell : deviceCell s.params.device ea ≠ none) : ((s.memWrite ea v).setPc ea).nextByte.1 = v := by
  obtain ⟨cell, hc⟩ := Option.ne_none_iff_exists'.1 hcell
  rw [State.nextByte_fst, State.peek_setPc, State.setPc_pc, State.peek_memWrite_of_cell hwf hc, if_pos hc]

/-- Settles O48: each store writes its register at the address its mode resolves to. -/
theorem storeIsSeenByTheNextFetch : Obligations.StoreIsSeenByTheNextFetch := by
  intro i s t ea reg hwf hreg hea hcell h
  have hstore : storing i.mode reg s = .next t := by
    obtain ⟨hn, rfl⟩ | ⟨hn, rfl⟩ | ⟨hn, rfl⟩ := hreg <;>
      rwa [exec_eq_meaning (by rw [hn]; decide), hn] at h
  rw [storing_of_mem hea hstore]
  exact State.nextByte_memWrite reg (by rwa [State.resolve_mem]) (by rwa [State.resolve_params])

end Sys2Proof.Machine
end

section
/-! PROOFS. 20_memory.md R46, R48, R49, R303: every step adds the opcode read and at most five accesses to the history,
and in every run the history explains the memory and every byte read. -/

namespace Sys2Proof.Machine

/-- After the opcode is read, a step makes progress by reads, writes and register updates. -/
theorem step_progress {s t : State} (h : step s = .next t) : Progress s.afterOpcode t := by
  obtain ⟨-, ⟨-, rfl⟩ | ⟨-, hexec⟩⟩ := step_cases h
  · exact .regs (.refl _) rfl rfl rfl rfl
  · exact (Progress.fetchBytes _ _).trans (exec_progress hexec)

/-! ### How many accesses: the operand bytes and the instruction's own -/

theorem State.fetchBytes_accesses (n : Nat) (s : State) :
    (State.fetchBytes n s).2.history.length = s.history.length + n := by
  induction n generalizing s with
  | zero => rfl
  | succ n ih =>
    simp only [State.fetchBytes_succ, ih, State.nextByte_snd, State.setPc_history, State.record_history,
      List.length_cons]
    omega

/-- An instruction encodes to as many bytes as its mode has (R61). -/
theorem encode_length (i : Instr) : (encode i).length = i.length := by
  cases i <;> rfl

/-- The step fetches as many operand bytes as the mode of the decoded instruction consumes (R61). -/
theorem operandBytes_decodeInstr (opcode b1 b2 : Byte) :
    (decodeInstr opcode b1 b2).mode.kind.operandBytes = operandCount opcode := by
  have row := tableEntry_encodesAt opcode
  have hlength : (encode (decodeInstr opcode b1 b2)).length = operandCount opcode + 1 := by
    unfold decodeInstr operandCount
    cases he : tableEntry opcode with
    | op0 i => rw [he] at row; rw [row.1]; rfl
    | op1 mk => rw [he] at row; rw [(row b1).1]; rfl
    | op2 mk => rw [he] at row; rw [(row _).1]; rfl
    | unimpl => rfl
  rw [encode_length] at hlength
  exact Nat.succ.inj hlength

/-- Operand bytes and pointer reads: two and two in the indirect mode, at most three in all others (R104 to R116). -/
theorem State.resolve_accesses (s : State) (m : Mode) :
    (s.resolve m).2.history.length + m.kind.operandBytes ≤ s.history.length + 4 := by
  rw [State.resolve_snd]
  cases m <;> simp [pointerAddrs, Mode.kind, ModeKind.operandBytes]

theorem State.resolve_accesses_of_mem {s : State} {m : Mode} {ea : Word} (h : (s.resolve m).1 = .mem ea) :
    (s.resolve m).2.history.length + m.kind.operandBytes ≤ s.history.length + 3 := by
  rw [State.resolve_snd]
  cases m
  case ind => cases h
  all_goals simp [pointerAddrs, Mode.kind, ModeKind.operandBytes]

theorem State.readOperand_accesses {s t : State} {m : Mode} {v : Byte} (h : s.readOperand m = some (v, t)) :
    t.history.length + m.kind.operandBytes ≤ s.history.length + 4 := by
  obtain ⟨rfl, -⟩ | ⟨ea, hea, -, rfl⟩ := State.opRead_cases h
  · exact State.resolve_accesses s m
  · have := State.resolve_accesses_of_mem hea
    simp only [State.memRead_snd, State.record_history, List.length_cons]
    omega

theorem State.opWrite_accesses {s t : State} {o : Operand} {v : Byte} (h : s.opWrite o v = some t) :
    t.history.length ≤ s.history.length + 1 := by
  obtain ⟨-, rfl⟩ | ⟨ea, -, rfl⟩ := State.opWrite_cases h <;> simp

theorem reading_accesses {m : Mode} {s t : State} {k : Byte → State → State} (h : reading m s k = .next t)
    (hk : ∀ v u, (k v u).history = u.history) :
    t.history.length + m.kind.operandBytes ≤ s.history.length + 4 := by
  obtain ⟨v, u, hu, rfl⟩ := reading_next h
  rw [hk]
  exact State.readOperand_accesses hu

theorem storing_accesses {m : Mode} {s t : State} {v : Byte} (h : storing m v s = .next t) :
    t.history.length + m.kind.operandBytes ≤ s.history.length + 5 := by
  have := State.opWrite_accesses (storing_next h)
  have := State.resolve_accesses s m
  omega

theorem modifying_accesses {m : Mode} {s t : State} {f : Byte → Flags → Byte} {g : Byte → Flags → Flags}
    (h : modifying m s f g = .next t) : t.history.length + m.kind.operandBytes ≤ s.history.length + 5 := by
  obtain ⟨v, u, w, hu, hw, rfl⟩ := modifying_next h
  have := State.readOperand_accesses hu
  have := State.opWrite_accesses hw
  simp only [State.setFlags_history]
  omega

theorem operandBytes_le (k : ModeKind) : k.operandBytes ≤ 2 := by
  cases k <;> decide

/-- A meaning without an operand, of at most three accesses. -/
theorem accesses_of_next {m : Mode} {s t u : State} (h : (Host.Outcome.next u : Result) = .next t)
    (hu : u.history.length ≤ s.history.length + 3) :
    t.history.length + m.kind.operandBytes ≤ s.history.length + 5 := by
  injection h with h
  subst h
  have := operandBytes_le m.kind
  omega

@[simp] theorem State.pullWord_history_length (s : State) :
    s.pullWord.2.history.length = s.history.length + 2 := rfl
@[simp] theorem State.returnFromInterrupt_history_length (s : State) :
    s.returnFromInterrupt.history.length = s.history.length + 3 := rfl
@[simp] theorem State.interruptEntry_history_length (s : State) (vector : Word) :
    (s.interruptEntry vector).history.length = s.history.length + 5 := rfl

theorem Instr.mode_of_brk {i : Instr} (h : i.mnemonic = .brk) : i.mode = .imp := by
  cases i <;> cases h
  rfl

theorem Instr.mode_of_jsr {i : Instr} (h : i.mnemonic = .jsr) : ∃ w, i.mode = .abs w := by
  cases i <;> cases h
  exact ⟨_, rfl⟩

/-- Operand bytes and accesses of a meaning are at most five. BRK reaches five because it has no operand byte, and JSR
stays below because its mode reads no pointer. -/
theorem meaning_accesses {n : Mnemonic} {m : Mode} {s t : State} (hbrk : n = .brk → m = .imp)
    (hjsr : n = .jsr → ∃ w, m = .abs w) (h : meaning n m s = .next t) :
    t.history.length + m.kind.operandBytes ≤ s.history.length + 5 := by
  cases n
  case brk =>
    cases hbrk rfl
    injection h with h
    rw [← h, State.interruptEntry_history_length]
    exact Nat.le_refl _
  case jsr =>
    obtain ⟨w, rfl⟩ := hjsr rfl
    injection h with h
    rw [← h, State.setPc_history, State.pushWord_history]
    exact Nat.le_succ _
  case jmp =>
    simp only [meaning, semJmp] at h
    obtain ⟨w, -, rfl⟩ := targeting_next h
    exact Nat.le_succ_of_le (State.resolve_accesses s m)
  case sta | stx | sty => exact storing_accesses h
  case asl | lsr | rol | ror | inc | dec =>
    simp only [meaning, semAsl, semLsr, semRol, semRor, semInc, semDec] at h
    exact modifying_accesses h
  case bcc | bcs | beq | bne | bmi | bpl | bvc | bvs =>
    exact Nat.le_succ_of_le (reading_accesses h fun v u => by split <;> rfl)
  case adc | sbc | and | ora | eor | cmp | cpx | cpy | bit | lda | ldx | ldy =>
    exact Nat.le_succ_of_le (reading_accesses h fun _ _ => rfl)
  -- The rest are register updates, one push, or at most three pulls: no operand.
  all_goals
    refine accesses_of_next h ?_
    simp [State.loadA, State.loadX, State.loadY]

/-- Operand bytes and accesses of an instruction are at most five. -/
theorem exec_accesses {i : Instr} {s t : State} (h : exec i s = .next t) :
    t.history.length + i.mode.kind.operandBytes ≤ s.history.length + 5 := by
  by_cases hu : i.mnemonic = .unimplemented
  · obtain ⟨opcode, rfl⟩ := Instr.eq_unimplemented hu
    exact accesses_of_next h (Nat.le_add_right _ 3)
  · rw [exec_eq_meaning hu] at h
    exact meaning_accesses Instr.mode_of_brk Instr.mode_of_jsr h

/-- A step makes at most five accesses after the opcode read (R303). -/
theorem step_accesses {s t : State} (h : step s = .next t) :
    t.history.length ≤ s.afterOpcode.history.length + 5 := by
  obtain ⟨-, ⟨-, rfl⟩ | ⟨-, hexec⟩⟩ := step_cases h
  · exact Nat.le_add_right _ 5
  · have := exec_accesses hexec
    rw [operandBytes_decodeInstr, State.fetchBytes_accesses] at this
    omega

/-- Settles O59: the progress after the opcode read explains the new history, and `step_accesses` bounds it. -/
theorem stepExtendsTheHistory : Obligations.StepExtendsTheHistory := by
  intro s t h
  obtain ⟨new, hhistory, hmem, -⟩ := (step_progress h).history_explains
  have hbound := step_accesses h
  rw [hhistory, List.length_append] at hbound
  rw [State.afterOpcode_history] at hhistory
  rw [State.afterOpcode_params, State.afterOpcode_mem] at hmem
  exact ⟨new, hhistory, by omega, hmem⟩

/-! ### The history of a run -/

/-- Replaying the later events on the memory that the earlier ones left. -/
theorem replay_append (device : List Region) (m : Memory) (later earlier : List Access) :
    replay device m (later ++ earlier) = replay device (replay device m earlier) later := by
  induction later with
  | nil => rfl
  | cons e later ih => cases e <;> simp only [List.cons_append, replay, ih]

/-- Reads agree in a whole history exactly when they agree in its two parts. -/
theorem readsAgree_append {device : List Region} {m : Memory} {before later earlier : List Access} :
    readsAgree device m before (later ++ earlier) ↔ readsAgree device m before earlier ∧
      readsAgree device (replay device m earlier) (earlier ++ before) later := by
  induction later with
  | nil => exact (and_iff_left trivial).symm
  | cons e later ih =>
    cases e <;> simp only [List.cons_append, readsAgree, ih, replay_append, List.append_assoc, and_assoc]

/-- The history of `s` explains its memory and every byte read, from the memory `m` of the launch on device
`device`. -/
def State.ExplainedFrom (device : List Region) (m : Memory) (s : State) : Prop :=
  s.params.device = device ∧ s.mem = replay device m s.history ∧ readsAgree device m [] s.history

theorem Progress.explainedFrom {device : List Region} {m : Memory} {s t : State} (h : Progress s t)
    (hs : s.ExplainedFrom device m) : t.ExplainedFrom device m := by
  obtain ⟨rfl, hmem, hreads⟩ := hs
  obtain ⟨new, hhistory, hmem', hreads'⟩ := h.history_explains
  refine ⟨by rw [h.params_eq], ?_, ?_⟩
  · rw [hmem', hmem, hhistory, replay_append]
  · rw [hhistory]
    exact readsAgree_append.2 ⟨hreads, by rwa [← hmem, List.append_nil]⟩

/-- The opcode read is one read; the break count and PC are no part of the history. -/
theorem State.explainedFrom_afterOpcode {device : List Region} {m : Memory} {s : State}
    (hs : s.ExplainedFrom device m) : s.afterOpcode.ExplainedFrom device m := by
  unfold State.ExplainedFrom
  rw [State.afterOpcode_params, State.afterOpcode_mem, State.afterOpcode_history]
  exact (Progress.memRead s s.pc).explainedFrom hs

/-- Settles O58: a launch has an empty history, and every step keeps what its history explains. -/
theorem runIsSequentiallyConsistent : Obligations.RunIsSequentiallyConsistent := by
  intro n a x y sp pc f m p
  have hlaunch : (State.launch a x y sp pc f m p).ExplainedFrom p.device m := ⟨rfl, rfl, trivial⟩
  obtain ⟨-, hmem, hreads⟩ := runLoop_induction
    (fun _ _ hs hstep => (step_progress hstep).explainedFrom (State.explainedFrom_afterOpcode hs)) n hlaunch
  exact ⟨hmem, hreads⟩

end Sys2Proof.Machine
end

section
/-! PROOFS. 30_encoding.md R60 to R66: the decoder by table entry, and the two round trips. A list of bytes decodes as
the entry its first byte indexes, and by `tableEntry_encodesAt` the list by mnemonic encodes that entry back. -/

namespace Sys2Proof.Machine

/-! ### The decoder, by the entry of the opcode byte -/

theorem decode_of_op0 {opcode : Byte} {i : Instr} (h : tableEntry opcode = .op0 i) (rest : List Byte) :
    decode ([opcode] ++ rest) = .ok (i, rest) := by
  simp [decode, decodeInstr, operandCount, h]

theorem decode_of_op1 {opcode : Byte} {mk : Byte → Instr} (h : tableEntry opcode = .op1 mk) (b : Byte)
    (rest : List Byte) : decode ([opcode, b] ++ rest) = .ok (mk b, rest) := by
  simp [decode, decodeInstr, operandCount, h]

theorem decode_of_op2 {opcode : Byte} {mk : Word → Instr} (h : tableEntry opcode = .op2 mk) (w : Word)
    (rest : List Byte) : decode (encodeWord opcode w ++ rest) = .ok (mk w, rest) := by
  simp [decode, decodeInstr, operandCount, encodeWord, operandWord_bytes, h]

theorem decode_of_unimpl {opcode : Byte} (h : tableEntry opcode = .unimpl) (rest : List Byte) :
    decode ([opcode] ++ rest) = .ok (.unimplemented opcode, rest) := by
  simp [decode, decodeInstr, operandCount, h]

/-- A list decodes exactly when it holds the operand bytes of its first byte; what the entry's mode does not consume
is left (R60, R62). -/
theorem decode_eq_ok {bytes rest : List Byte} {i : Instr} :
    decode bytes = .ok (i, rest) ↔
      ∃ opcode tail, bytes = opcode :: tail ∧ operandCount opcode ≤ tail.length ∧
        i = decodeInstr opcode (tail.getD 0 0) (tail.getD 1 0) ∧ rest = tail.drop (operandCount opcode) := by
  cases bytes with
  | nil => simp [decode]
  | cons opcode tail =>
    by_cases hlen : tail.length < operandCount opcode
    · simp [decode, hlen]
    · simp [decode, hlen, Nat.not_lt.1 hlen, eq_comm]

/-! ### Decoding what is encoded -/

/-- Settles O10: each constructor stands in the grid of R64 at the byte the list by mnemonic gives it, in an entry of as
many operand bytes; a well-formed sentinel carries a byte of R65. -/
theorem decodeOfEncodeIsTheInstruction : Obligations.DecodeOfEncodeIsTheInstruction := by
  intro i rest hwf
  cases i
  case unimplemented opcode => exact decode_of_unimpl (tableEntry_of_sentinel hwf) rest
  case aslAcc | lsrAcc | rolAcc | rorAcc | inx | iny | dex | dey | pha | php | pla | plp | tsx | txs | tax | tay | txa
      | tya | rts | brk | rti | clc | cld | cli | clv | sec | sed | sei | nop =>
    exact decode_of_op0 rfl rest
  case adcAbs w | adcAbsx w | adcAbsy w | sbcAbs w | sbcAbsx w | sbcAbsy w | andAbs w | andAbsx w | andAbsy w
      | oraAbs w | oraAbsx w | oraAbsy w | eorAbs w | eorAbsx w | eorAbsy w | aslAbs w | aslAbsx w | lsrAbs w
      | lsrAbsx w | rolAbs w | rolAbsx w | rorAbs w | rorAbsx w | incAbs w | incAbsx w | decAbs w | decAbsx w
      | cmpAbs w | cmpAbsx w | cmpAbsy w | cpxAbs w | cpyAbs w | bitAbs w | jmpAbs w | jmpInd w | jsr w | ldaAbs w
      | ldaAbsx w | ldaAbsy w | ldxAbs w | ldxAbsy w | ldyAbs w | ldyAbsx w | staAbs w | staAbsx w | staAbsy w
      | stxAbs w | styAbs w =>
    exact decode_of_op2 rfl w rest
  all_goals exact decode_of_op1 rfl _ rest

/-! ### Encoding what is decoded -/

theorem operandCount_le (opcode : Byte) : operandCount opcode ≤ 2 := by
  unfold operandCount
  split <;> decide

/-- An instruction encodes to the bytes it was decoded from, those its entry's mode does not consume left out. -/
theorem encode_decodeInstr (opcode b1 b2 : Byte) :
    encode (decodeInstr opcode b1 b2) = opcode :: [b1, b2].take (operandCount opcode) := by
  have row := tableEntry_encodesAt opcode
  unfold decodeInstr operandCount
  cases he : tableEntry opcode with
  | op0 i =>
    rw [he] at row
    exact row.1
  | op1 mk =>
    rw [he] at row
    exact (row b1).1
  | op2 mk =>
    rw [he] at row
    rw [(row _).1, encodeWord, operandWord, loByte_hiLo, hiByte_hiLo]
    rfl
  | unimpl => rfl

/-- The first bytes of a list, at most two, read one by one. -/
theorem take_getD_append_drop {n : Nat} (hn : n ≤ 2) {tail : List Byte} (h : n ≤ tail.length) :
    [tail.getD 0 0, tail.getD 1 0].take n ++ tail.drop n = tail := by
  match n, tail, hn, h with
  | 0, _, _, _ => rfl
  | 1, _ :: _, _, _ => rfl
  | 2, _ :: _ :: _, _, _ => rfl

/-- Settles O11: the instruction encodes to the first byte and the operand bytes read, and the rest follows them. -/
theorem encodeOfDecodeIsTheBytes : Obligations.EncodeOfDecodeIsTheBytes := by
  intro bytes rest i h
  obtain ⟨opcode, tail, rfl, hlen, rfl, rfl⟩ := decode_eq_ok.1 h
  refine ⟨(decodeInstr_encodes ..).2, ?_⟩
  rw [encode_decodeInstr, List.cons_append, take_getD_append_drop (operandCount_le opcode) hlen]

/-- Settles O9: each opcode byte's entry, and the list `20 00` one byte short of JSR's two. -/
theorem wordsOfTheSpecDecode : Obligations.WordsOfTheSpecDecode :=
  ⟨decode_of_op1 rfl 0x42 [], decode_of_op2 rfl 0x0200 [], decode_of_op0 rfl [], decode_of_op2 rfl 0x02FF [0xEA],
    decode_of_op1 rfl 0xFA [], decode_of_op1 rfl 0xF0 [], decode_of_op0 rfl [], decode_of_op1 rfl 0x40 [],
    decode_of_unimpl rfl [0xEA], rfl⟩

/-! ### The sentinel bytes -/

theorem decodeInstr_of_sentinel {opcode : Byte} (h : isSentinel opcode = true) (b1 b2 : Byte) :
    decodeInstr opcode b1 b2 = .unimplemented opcode := by
  simp only [decodeInstr, tableEntry_of_sentinel h]

theorem operandCount_of_sentinel {opcode : Byte} (h : isSentinel opcode = true) : operandCount opcode = 0 := by
  simp only [operandCount, tableEntry_of_sentinel h]

/-- R65 lists the sentinel bytes in ascending order, so no byte twice. -/
theorem sentinelOpcodes_nodup : sentinelOpcodes.Nodup := by
  have ascending : sentinelOpcodes.IsChain (· < ·) := by simp [sentinelOpcodes]
  exact (List.isChain_iff_pairwise.1 ascending).imp BitVec.ne_of_lt

/-- Settles O12: the sentinel's entries of the grid are those of the bytes of R65. -/
theorem opcodeByteIsAnInstructionOrTheSentinel : Obligations.OpcodeByteIsAnInstructionOrTheSentinel := by
  refine ⟨rfl, sentinelOpcodes_nodup, fun opcode b1 b2 => ⟨fun h => ?_, fun h hn => ?_⟩⟩
  · exact ⟨decodeInstr_of_sentinel h b1 b2, operandCount_of_sentinel h⟩
  · rw [(decodeInstr_unimplemented hn).2] at h
    cases h

end Sys2Proof.Machine
end

section
/-! PROOFS. 30_encoding.md R60, R69 to R72: the fetch reads ascending bytes; a step is the halt of a counted break, or the
decoded instruction past its bytes. -/

namespace Sys2Proof.Machine

/-! ### The bytes of a fetch -/

/-- The addresses of `n` instruction bytes from `pc` on (R60). -/
def fetchAddrs (pc : Word) (n : Nat) : List Word := (List.range n).map fun j => pc + BitVec.ofNat 16 j

theorem fetchAddrs_zero (pc : Word) : fetchAddrs pc 0 = [] := rfl

theorem fetchAddrs_succ (pc : Word) (n : Nat) : fetchAddrs pc (n + 1) = pc :: fetchAddrs (pc + 1) n := by
  have next (j : Nat) : pc + BitVec.ofNat 16 (j + 1) = pc + 1 + BitVec.ofNat 16 j := by
    rw [Nat.add_comm, BitVec.ofNat_add, BitVec.add_assoc]
    rfl
  rw [fetchAddrs, List.range_succ_eq_map, List.map_cons, List.map_map, BitVec.add_zero]
  exact congrArg (pc :: ·) (List.map_congr_left fun j _ => next j)

/-- Reading an instruction byte leaves what is read at an address with memory behind it. -/
theorem State.peek_nextByte {s : State} {addr : Word} (h : deviceCell s.params.device addr ≠ none) :
    s.nextByte.2.peek addr = s.peek addr := by
  rw [State.nextByte_snd, State.peek_setPc, State.peek_record_of_ne_none _ h]

/-- The bytes fetched, and the reads recorded, are those at `fetchAddrs` before the fetch. -/
theorem State.fetchBytes_reads {n : Nat} {s : State}
    (h : ∀ addr ∈ fetchAddrs s.pc n, deviceCell s.params.device addr ≠ none) :
    (s.fetchBytes n).1 = (fetchAddrs s.pc n).map s.peek ∧
      (s.fetchBytes n).2.history =
        ((fetchAddrs s.pc n).map fun addr => Access.read addr (s.peek addr)).reverse ++ s.history := by
  induction n generalizing s with
  | zero => exact ⟨rfl, rfl⟩
  | succ n ih =>
    rw [fetchAddrs_succ] at h ⊢
    have htail : ∀ addr ∈ fetchAddrs (s.pc + 1) n, deviceCell s.params.device addr ≠ none :=
      fun addr hmem => h addr (List.mem_cons_of_mem _ hmem)
    obtain ⟨hbytes, hhistory⟩ := ih (s := s.nextByte.2) htail
    have hpeek : ∀ addr ∈ fetchAddrs (s.pc + 1) n, s.nextByte.2.peek addr = s.peek addr :=
      fun addr hmem => State.peek_nextByte (htail addr hmem)
    rw [State.fetchBytes_succ]
    constructor
    · rw [hbytes, List.map_cons]
      exact congrArg _ (List.map_congr_left hpeek)
    · rw [hhistory, List.map_cons, List.reverse_cons, List.append_assoc]
      exact congrArg (·.reverse ++ _) (List.map_congr_left fun addr hmem => congrArg _ (hpeek addr hmem))

/-- Settles O13: `fetchAddrs` written out, and PC moved past them. -/
theorem fetchReadsAscendingBytes : Obligations.FetchReadsAscendingBytes := by
  intro n s h
  obtain ⟨hbytes, hhistory⟩ := State.fetchBytes_reads (n := n) (s := s) (by simpa [fetchAddrs] using h)
  rw [State.fetchBytes_snd_eq, hbytes, hhistory]
  simp only [fetchAddrs, List.map_map, Function.comp_def, and_self]

/-! ### The two ends of a fetch -/

/-- The step of a fetch that halts (R70). -/
theorem step_of_halts {s : State} (hr : s.run = .running) (h : s.breakHalts (s.peek s.pc) = true) :
    step s = .next (((s.memRead s.pc).2.countBreak (s.peek s.pc)).setRun .halted) := by
  rw [step_running hr, State.fetch_halts h]

/-- The step of a fetch that does not halt (R69). -/
theorem step_of_runs {s : State} (hr : s.run = .running) (h : s.breakHalts (s.peek s.pc) = false) :
    step s = exec
      (decodeInstr (s.peek s.pc)
        ((s.afterOpcode.fetchBytes (operandCount (s.peek s.pc))).1.getD 0 0)
        ((s.afterOpcode.fetchBytes (operandCount (s.peek s.pc))).1.getD 1 0))
      (s.afterOpcode.fetchBytes (operandCount (s.peek s.pc))).2 := by
  rw [step_running hr, State.fetch_runs h]

/-- An opcode read that counts no break is the read of any instruction byte. -/
theorem State.afterOpcode_of_ne {s : State} (h : s.peek s.pc ≠ breakOpcode) : s.afterOpcode = s.nextByte.2 := by
  rw [State.afterOpcode, State.countBreak_of_ne h]
  rfl

/-- The opcode read of a 0x00 counts a break (R70). -/
theorem State.afterOpcode_of_break {s : State} (h : s.peek s.pc = breakOpcode) :
    s.afterOpcode = { s with
      breakCount := s.breakCount + 1, pc := s.pc + 1, history := .read s.pc breakOpcode :: s.history } := by
  rw [State.afterOpcode, State.memRead_snd, h]
  rfl

theorem decodeInstr_break (b1 b2 : Byte) : decodeInstr breakOpcode b1 b2 = .brk := rfl

/-- Settles O14: the first of the bytes is the opcode, and as many follow as its entry consumes, since none is left. -/
theorem stepRunsTheDecodedInstruction : Obligations.StepRunsTheDecodedInstruction := by
  intro s n i hr hdecode hi
  obtain ⟨opcode, tail, hbytes, hlen, rfl, hrest⟩ := decode_eq_ok.1 hdecode
  cases n with
  | zero => cases hbytes
  | succ n =>
    rw [State.fetchBytes_succ] at hbytes
    obtain ⟨rfl, rfl⟩ := List.cons.inj hbytes
    have hn : n = operandCount (s.peek s.pc) := by
      have hdrop := List.drop_eq_nil_iff.1 hrest.symm
      rw [State.fetchBytes_length] at hlen hdrop
      exact Nat.le_antisymm hdrop hlen
    have hop : s.peek s.pc ≠ breakOpcode := fun h => hi (by rw [h, decodeInstr_break])
    rw [step_of_runs hr (State.breakHalts_of_ne hop), State.afterOpcode_of_ne hop, ← hn]
    rfl

/-! ### The break counter -/

/-- Every constructor pairs its meaning with a mode that has the side it uses (R102, R103, R117), so its arm answers a
next state. -/
theorem exec_completes (i : Instr) (s : State) : ∃ t, exec i s = .next t := by
  cases i <;> exact ⟨_, rfl⟩

theorem exec_unimplemented (opcode : Byte) (s : State) :
    exec (.unimplemented opcode) s = .next (s.raiseUnimplemented opcode) := rfl

/-- The fault recorded after the opcode read names the address of the opcode (R71, R301). -/
theorem State.raiseUnimplemented_nextByte (s : State) (opcode : Byte) :
    s.nextByte.2.raiseUnimplemented opcode = { s with
      run := .faulted opcode s.pc, pc := s.pc + 1, history := .read s.pc (s.peek s.pc) :: s.history } := by
  rw [State.raiseUnimplemented, State.nextByte_snd, State.setPc_pc, BitVec.add_sub_cancel]
  rfl

/-- Only a fetch halts the engine (R32, R70). -/
theorem exec_run_ne_halted {i : Instr} {s t : State} (hr : s.run = .running) (h : exec i s = .next t) :
    t.run ≠ .halted := by
  by_cases hi : i.mnemonic = .unimplemented
  · obtain ⟨opcode, rfl⟩ := Instr.eq_unimplemented hi
    cases h
    exact nofun
  · rw [exec_run hi h, hr]
    exact nofun

/-- A step whose fetch does not halt completes without halting (R70). -/
theorem step_run_ne_halted {s t : State} (hb : s.breakHalts (s.peek s.pc) = false) (h : step s = .next t) :
    t.run ≠ .halted := by
  obtain ⟨hr, ⟨hb', -⟩ | ⟨-, hexec⟩⟩ := step_cases h
  · rw [hb] at hb'
    cases hb'
  · refine exec_run_ne_halted ?_ hexec
    rw [State.fetchBytes_snd_eq]
    exact (State.afterOpcode_run s).trans hr

/-- Settles O15: the threshold decides which end the fetch of a 0x00 has; another byte counts nothing. -/
theorem breakCounterHaltsOrRunsBrk : Obligations.BreakCounterHaltsOrRunsBrk := by
  intro s hr
  refine ⟨fun (hop : s.peek s.pc = breakOpcode) hmax => ?_, fun (hop : s.peek s.pc = breakOpcode) hmax => ?_,
    fun (hop : s.peek s.pc ≠ breakOpcode) => ?_⟩
  · have hb : s.breakHalts (s.peek s.pc) = true := State.breakHalts_iff.2 ⟨hop, Nat.le_of_lt_succ hmax⟩
    rw [step_of_halts hr hb, State.memRead_snd, hop]
    rfl
  · have hb : s.breakHalts (s.peek s.pc) = false := by
      rw [hop]
      simpa [State.breakHalts_break] using hmax
    rw [step_of_runs hr hb, State.afterOpcode_of_break hop, hop]
    rfl
  · have hb := State.breakHalts_of_ne (s := s) hop
    obtain ⟨t, ht⟩ : ∃ t, step s = .next t := by
      rw [step_of_runs hr hb]
      exact exec_completes _ _
    refine ⟨t, ht, ?_, step_run_ne_halted hb ht⟩
    rw [(step_progress ht).breakCount_eq, State.afterOpcode_breakCount, if_neg hop]

/-- Settles O16: the entry of a sentinel consumes no operand byte. -/
theorem sentinelOpcodeFaultsTheEngine : Obligations.SentinelOpcodeFaultsTheEngine := by
  intro s opcode hsentinel
  refine ⟨fun hr hop => ?_, fun b1 b2 => ?_⟩
  · have hne : s.peek s.pc ≠ breakOpcode := by
      intro h
      rw [← hop, h] at hsentinel
      cases hsentinel
    rw [step_of_runs hr (State.breakHalts_of_ne hne), State.afterOpcode_of_ne hne, hop,
      operandCount_of_sentinel hsentinel, decodeInstr_of_sentinel hsentinel, exec_unimplemented]
    rw [State.fetchBytes_zero, State.raiseUnimplemented_nextByte, hop]
  · rw [decodeInstr_of_sentinel hsentinel, exec_unimplemented]
    rfl

/-! ### The breaks of a run -/

/-- The break count belongs to the run state: over `MAX_BREAK_COUNT` by one where the engine has halted, within it
elsewhere (R70). -/
def State.BreaksWithin (p : Params) (s : State) : Prop :=
  s.params = p ∧
    (s.run = .halted ∧ s.breakCount = p.maxBreakCount + 1 ∨ s.run ≠ .halted ∧ s.breakCount ≤ p.maxBreakCount)

theorem State.breaksWithin_launch (a x y sp : Byte) (pc : Word) (f : Flags) (m : Memory) (p : Params) :
    (State.launch a x y sp pc f m p).BreaksWithin p :=
  ⟨rfl, .inr ⟨nofun, Nat.zero_le _⟩⟩

/-- After the opcode read a step keeps the break count, so the fetch decides: it halts, or stays within. -/
theorem step_breaksWithin {p : Params} {s t : State} (hs : s.BreaksWithin p) (h : step s = .next t) :
    t.BreaksWithin p := by
  obtain ⟨rfl, hs⟩ := hs
  obtain ⟨hr, -⟩ := step_cases h
  have hcount : s.breakCount ≤ s.params.maxBreakCount := by simpa [hr] using hs
  have progress := step_progress h
  refine ⟨by rw [progress.params_eq, State.afterOpcode_params], ?_⟩
  rw [progress.breakCount_eq]
  cases hb : s.breakHalts (s.peek s.pc) with
  | false => exact .inr ⟨step_run_ne_halted hb h, State.afterOpcode_breakCount_le hb hcount⟩
  | true =>
    obtain ⟨hop, hmax⟩ := State.breakHalts_iff.1 hb
    rw [step_of_halts hr hb] at h
    cases h
    refine .inl ⟨rfl, ?_⟩
    rw [State.afterOpcode_breakCount, if_pos hop, Nat.le_antisymm hcount hmax]

/-- Settles O57, by the induction over a run. -/
theorem runCountsAtMostMaxBreaks : Obligations.RunCountsAtMostMaxBreaks := by
  intro n a x y sp pc f m p
  obtain ⟨hparams, hbreaks⟩ := runLoop_induction (fun _ _ => step_breaksWithin) n
    (State.breaksWithin_launch a x y sp pc f m p)
  obtain ⟨hhalted, hcount⟩ | ⟨hrunning, hcount⟩ := hbreaks
  · exact ⟨hcount.le, iff_of_true hhalted hcount, hparams⟩
  · exact ⟨by omega, iff_of_false hrunning (by omega), hparams⟩

end Sys2Proof.Machine
end

section
/-! PROOFS. 40_addressing_modes.md: what the thirteen modes resolve to and read (R104 to R116, R119), and what the
operand kinds read, write and target (R102, R103, R117, R118). -/

namespace Sys2Proof.Machine

/-! ### The operand kinds -/

/-- Settles O22: each kind's row in R102, R103 and R117. -/
theorem operandKindsReadWriteAndTarget : Obligations.OperandKindsReadWriteAndTarget := by
  intro s v w ea
  refine ⟨rfl, rfl, rfl, rfl, rfl, rfl, rfl, rfl, fun o ho => ?_, rfl, rfl, fun o ho => ?_⟩
  · simp only [List.mem_cons, List.not_mem_nil, or_false] at ho
    obtain rfl | rfl | rfl | rfl := ho <;> rfl
  · simp only [List.mem_cons, List.not_mem_nil, or_false] at ho
    obtain rfl | rfl | rfl | rfl := ho <;> rfl

/-- Poking the byte an address gives, where memory is behind it, keeps every cell. -/
theorem State.memAfterPoke_peek {s : State} {addr : Word} (hwf : Memory.wf s.mem)
    (hcell : deviceCell s.params.device addr ≠ none) :
    memAfterPoke s.params.device s.mem addr (s.peek addr) = s.mem := by
  obtain ⟨cell, hc⟩ := Option.ne_none_iff_exists'.1 hcell
  simp only [memAfterPoke, State.peek, hc, Memory.write_read_self hwf]

/-- R118 for an operand already resolved. -/
theorem State.opWrite_opRead {s s1 s2 : State} {o : Operand} {v : Byte} (hwf : Memory.wf s.mem)
    (hcell : ∀ ea, o = .mem ea → deviceCell s.params.device ea ≠ none)
    (hread : s.opRead o = some (v, s1)) (hwrite : s1.opWrite o v = some s2) : s2.a = s.a ∧ s2.mem = s.mem := by
  obtain ⟨rfl, rfl⟩ | ⟨ea, rfl, rfl⟩ := State.opWrite_cases hwrite
  · cases hread
    exact ⟨rfl, rfl⟩
  · cases hread
    exact ⟨rfl, State.memAfterPoke_peek hwf (hcell ea rfl)⟩

/-- Settles O23: resolution moves neither A, memory nor the device, and from there the operand is read and written. -/
theorem writingBackTheOperandChangesNothing : Obligations.WritingBackTheOperandChangesNothing := by
  intro s s1 s2 m v hwf hcell hread hwrite
  have ha : (s.resolve m).2.a = s.a := by rw [State.resolve_snd_eq]
  obtain ⟨hs2a, hs2mem⟩ := State.opWrite_opRead (by rwa [State.resolve_mem]) (by rwa [State.resolve_params])
    hread hwrite
  exact ⟨hs2a.trans ha, hs2mem.trans (State.resolve_mem s m)⟩

/-! ### The modes -/

/-- Settles O19: each mode's row in R61 and in R104 to R113. -/
theorem directModesResolveWithoutAccess : Obligations.DirectModesResolveWithoutAccess :=
  fun _ _ _ => ⟨⟨rfl, rfl⟩, ⟨rfl, rfl⟩, ⟨rfl, rfl⟩, ⟨rfl, rfl⟩, ⟨rfl, rfl⟩, ⟨rfl, rfl⟩, ⟨rfl, rfl⟩, ⟨rfl, rfl⟩,
    ⟨rfl, rfl⟩, ⟨rfl, rfl⟩⟩

/-- The high-byte address of R114, from the operand bytes. -/
theorem indHighAddr_operandWord (pageWrap : Bool) (b1 b2 : Byte) :
    indHighAddr pageWrap (operandWord b1 b2) =
      if pageWrap then (operandWord b1 b2 &&& 0xFF00) ||| zext16 (b1 + 1) else operandWord b1 b2 + 1 := by
  rw [indHighAddr_eq, operandWord, loByte_hiLo]

/-- Settles O20: a pointer read is its two reads, and its second address is the one R114, R115 and R116 write. -/
theorem pointerModesReadTheirPointer : Obligations.PointerModesReadTheirPointer := by
  intro s b1 b2 ptr indHi zpHi lo hi zlo zhi
  have hind : indHighAddr s.params.jmpIndPageWrap (operandWord b1 b2) = indHi := indHighAddr_operandWord _ b1 b2
  have hzp (p : Byte) : s.readZpPointer p = ((zhi p).1 ++ zlo p, (zhi p).2) := by
    rw [State.readZpPointer, zpHighAddr_eq]
    rfl
  refine ⟨⟨rfl, ?_⟩, ⟨rfl, ?_⟩, ⟨rfl, ?_⟩⟩
  · simp only [ModeKind.withBytes, State.resolve, hind]
    rfl
  · simp only [ModeKind.withBytes, State.resolve, hzp]
  · simp only [ModeKind.withBytes, State.resolve, hzp]
    rfl

/-! ### The zero page -/

theorem zext16_toNat_le (a : Byte) : (zext16 a).toNat ≤ 0xFF := by
  rw [zext16, BitVec.toNat_setWidth]
  omega

/-- The index is added modulo 256. -/
theorem zext16_add (a i : Byte) : zext16 (a + i) = BitVec.ofNat 16 ((a.toNat + i.toNat) % 256) := by
  apply BitVec.eq_of_toNat_eq
  simp only [zext16, BitVec.toNat_setWidth, BitVec.toNat_add, BitVec.toNat_ofNat]

/-- With `ZP_PTR_WRAP` true the pointer's high byte lies in the zero page too (R115, R116). -/
theorem zpHighAddr_wrap_toNat_le (p : Byte) : (zpHighAddr true p).toNat ≤ 0xFF := by
  rw [zpHighAddr_eq, if_pos rfl]
  exact zext16_toNat_le (p + 1)

/-- A mode with a pointer reads its two bytes, low byte first, and nothing else. -/
theorem State.resolve_history_of_pointer {s : State} {m : Mode} {l h : Word} (hptr : pointerAddrs s m = some (l, h)) :
    ∃ u w, (s.resolve m).2.history = .read h w :: .read l u :: s.history := by
  rw [State.resolve_snd, hptr]
  exact ⟨_, _, rfl⟩

/-- Settles O21: the address of a zero-page mode is a byte, and so are the pointer's two when `ZP_PTR_WRAP` is true. -/
theorem zeroPageModesStayInTheZeroPage : Obligations.ZeroPageModesStayInTheZeroPage := by
  intro s a
  refine ⟨fun m hm ea hea => ?_, congrArg _ (zext16_add a s.x), congrArg _ (zext16_add a s.y), fun hwrap m hm => ?_⟩
  · simp only [List.mem_cons, List.not_mem_nil, or_false] at hm
    obtain rfl | rfl | rfl := hm <;> cases hea <;> exact zext16_toNat_le _
  · have hptr : ∃ p, pointerAddrs s m = some (zext16 p, zpHighAddr true p) := by
      simp only [List.mem_cons, List.not_mem_nil, or_false] at hm
      obtain rfl | rfl := hm <;> exact ⟨_, by rw [pointerAddrs, hwrap]⟩
    obtain ⟨p, hp⟩ := hptr
    obtain ⟨u, w, hhistory⟩ := State.resolve_history_of_pointer hp
    exact ⟨zext16 p, zpHighAddr true p, u, w, hhistory, zext16_toNat_le p, zpHighAddr_wrap_toNat_le p⟩

end Sys2Proof.Machine
end

section
/-! PROOFS. 30_encoding.md R63: an opcode byte stands for one mnemonic and one mode, whatever bytes follow it; `exec` of
the decoded instruction is then the mnemonic's meaning on that mode. -/

namespace Sys2Proof.Machine

/-- The mnemonic and the mode an opcode byte stands for. -/
def opcodeForm (opcode : Byte) : Mnemonic × ModeKind :=
  ((decodeInstr opcode 0 0).mnemonic, (decodeInstr opcode 0 0).mode.kind)

/-- An instruction's mode holds the operand bytes it encodes to (R61). -/
theorem mode_eq_withBytes_encode (i : Instr) :
    i.mode = i.mode.kind.withBytes ((encode i).getD 1 0) ((encode i).getD 2 0) := by
  cases i <;> simp [Instr.mode, Mode.kind, ModeKind.withBytes, encode, encodeWord, operandWord_bytes]

/-- The first byte of a well-formed instruction says its mnemonic and its mode. -/
theorem opcodeForm_of_encode {i : Instr} {opcode : Byte} (hwf : WellFormed i = true)
    (h : (encode i).head? = some opcode) : opcodeForm opcode = (i.mnemonic, i.mode.kind) := by
  cases i with
  | unimplemented code =>
    cases h
    rw [opcodeForm, decodeInstr_of_sentinel hwf, Instr.mnemonic, Instr.mode]
  | _ =>
    cases h
    rfl

/-- A mode looks at no more bytes than it consumes. -/
theorem withBytes_take (k : ModeKind) (b1 b2 : Byte) :
    k.withBytes (([b1, b2].take k.operandBytes).getD 0 0) (([b1, b2].take k.operandBytes).getD 1 0) =
      k.withBytes b1 b2 := by
  cases k <;> rfl

theorem decodeInstr_mnemonic (opcode b1 b2 : Byte) :
    (decodeInstr opcode b1 b2).mnemonic = (opcodeForm opcode).1 := by
  obtain ⟨hhead, hwf⟩ := decodeInstr_encodes opcode b1 b2
  rw [opcodeForm_of_encode hwf hhead]

theorem decodeInstr_mode (opcode b1 b2 : Byte) :
    (decodeInstr opcode b1 b2).mode = (opcodeForm opcode).2.withBytes b1 b2 := by
  obtain ⟨hhead, hwf⟩ := decodeInstr_encodes opcode b1 b2
  have hmode := mode_eq_withBytes_encode (decodeInstr opcode b1 b2)
  rw [encode_decodeInstr, List.getD_cons_succ, List.getD_cons_succ, ← operandBytes_decodeInstr opcode b1 b2,
    withBytes_take] at hmode
  rw [opcodeForm_of_encode hwf hhead]
  exact hmode

/-- `exec` of an opcode byte and the bytes after it is the meaning of its mnemonic on its mode (R63). -/
theorem exec_decodeInstr {opcode : Byte} {n : Mnemonic} {k : ModeKind} (h : opcodeForm opcode = (n, k))
    (hn : n ≠ .unimplemented) (b1 b2 : Byte) (s : State) :
    exec (decodeInstr opcode b1 b2) s = meaning n (k.withBytes b1 b2) s := by
  have hmnemonic := decodeInstr_mnemonic opcode b1 b2
  have hmode := decodeInstr_mode opcode b1 b2
  rw [h] at hmnemonic hmode
  rw [exec_eq_meaning (hmnemonic ▸ hn), hmnemonic, hmode]

/-- An instruction that reads its operand ends in what is done with the byte read. -/
theorem exec_reading_next {i : Instr} {n : Mnemonic} {g : State → Byte → State → State} {s s1 t : State} {v : Byte}
    (hi : i.mnemonic = n) (hn : n ≠ .unimplemented) (hg : ∀ m s, meaning n m s = reading m s (g s))
    (hread : s.readOperand i.mode = some (v, s1)) (h : exec i s = .next t) : t = g s v s1 := by
  subst hi
  rw [exec_eq_meaning hn, hg] at h
  obtain ⟨w, u, hw, rfl⟩ := reading_next h
  cases hread.symm.trans hw
  rfl

/-- The forms of an instruction that reads its operand: each reads it and answers what is done with the byte read. -/
theorem exec_reading_forms {n : Mnemonic} {g : State → Byte → State → State} {forms : List (Byte × ModeKind)}
    (hforms : ∀ form ∈ forms, opcodeForm form.1 = (n, form.2)) (hn : n ≠ .unimplemented)
    (hg : ∀ m s, meaning n m s = reading m s (g s)) {opcode : Byte} {k : ModeKind} (h : (opcode, k) ∈ forms)
    (b1 b2 : Byte) (s : State) :
    ∃ v s1, s.readOperand (k.withBytes b1 b2) = some (v, s1) ∧
      exec (decodeInstr opcode b1 b2) s = .next (g s v s1) := by
  have hexec := exec_decodeInstr (hforms _ h) hn b1 b2 s
  obtain ⟨t, ht⟩ := exec_completes (decodeInstr opcode b1 b2) s
  obtain ⟨v, s1, hv, rfl⟩ := reading_next ((hg _ s).symm.trans (hexec.symm.trans ht))
  exact ⟨v, s1, hv, ht⟩

end Sys2Proof.Machine
end

section
/-! PROOFS. 41_arith_logic.md: ADC, SBC (R130, R131), AND, ORA and EOR (R132 to R134); the adder against the
integers. -/

namespace Sys2Proof.Machine

/-! ### The forms -/

/-- Settles O25: the table's eight ADC forms, each the adder on the byte it reads (R130). -/
theorem adcAddsTheOperandAndTheCarry : Obligations.AdcAddsTheOperandAndTheCarry := by
  intro opcode b1 b2 k s h
  exact exec_reading_forms (n := .adc) (by decide) nofun (fun _ _ => rfl) h b1 b2 s

/-- Settles O26: the table's eight SBC forms, each the adder on the complement of the byte it reads (R131). -/
theorem sbcAddsTheComplementAndTheCarry : Obligations.SbcAddsTheComplementAndTheCarry := by
  intro opcode b1 b2 k s h
  exact exec_reading_forms (n := .sbc) (by decide) nofun (fun _ _ => rfl) h b1 b2 s

theorem State.readOperand_flags {s t : State} {m : Mode} {v : Byte} (h : s.readOperand m = some (v, t)) :
    t.flags = s.flags := by
  rw [State.readOperand_snd_eq h]

/-- The forms of an instruction that loads A with `f A m`: N and Z follow the value loaded. -/
theorem exec_logic_forms {n : Mnemonic} {f : Byte → Byte → Byte} {forms : List (Byte × ModeKind)}
    (hforms : ∀ form ∈ forms, opcodeForm form.1 = (n, form.2)) (hn : n ≠ .unimplemented)
    (hf : ∀ m s, meaning n m s = reading m s fun v t => t.loadA (f s.a v)) {opcode : Byte} {k : ModeKind}
    (h : (opcode, k) ∈ forms) (b1 b2 : Byte) (s : State) :
    ∃ m s1, s.readOperand (k.withBytes b1 b2) = some (m, s1) ∧
      exec (decodeInstr opcode b1 b2) s = .next { s1 with
        a := f s.a m
        flags := { s.flags with n := (f s.a m).getLsbD 7, z := decide (f s.a m = 0) } } := by
  obtain ⟨m, s1, hm, hexec⟩ := exec_reading_forms hforms hn hf h b1 b2 s
  rw [← State.readOperand_flags hm]
  exact ⟨m, s1, hm, hexec⟩

/-- Settles O28, one mnemonic after the other. -/
theorem logicInstructionsUpdateTheAccumulator : Obligations.LogicInstructionsUpdateTheAccumulator := by
  rintro opcode b1 b2 k s f (⟨h, rfl⟩ | ⟨h, rfl⟩ | ⟨h, rfl⟩)
  · exact exec_logic_forms (n := .and) (by decide) nofun (fun _ _ => rfl) h b1 b2 s
  · exact exec_logic_forms (n := .ora) (by decide) nofun (fun _ _ => rfl) h b1 b2 s
  · exact exec_logic_forms (n := .eor) (by decide) nofun (fun _ _ => rfl) h b1 b2 s

/-! ### The adder -/

theorem adderResult_toNat (a m : Byte) (c : Bool) : (adderResult a m c).toNat = adderSum a m c % 256 :=
  BitVec.toNat_ofNat _ 8

theorem adderCarry_iff {a m : Byte} {c : Bool} : adderCarry a m c = true ↔ 255 < adderSum a m c :=
  decide_eq_true_iff

/-- The sum of two bytes and a carry is at most 511 (R135). -/
theorem adderSum_lt (a m : Byte) (c : Bool) : adderSum a m c < 512 := by
  have hc := c.toNat_le
  rw [adderSum]
  omega

/-- The carry is bit 8 of the sum. -/
theorem adderResult_add_adderCarry (a m : Byte) (c : Bool) :
    (adderResult a m c).toNat + 256 * (adderCarry a m c).toNat = adderSum a m c := by
  have hlt := adderSum_lt a m c
  rw [adderResult_toNat]
  by_cases hcarry : 255 < adderSum a m c
  · rw [adderCarry_iff.2 hcarry, Bool.toNat_true]
    omega
  · rw [Bool.eq_false_iff.2 (mt adderCarry_iff.1 hcarry), Bool.toNat_false]
    omega

/-- Bit 7 of the sum is bit 7 of its low byte. -/
theorem adderSum_testBit (a m : Byte) (c : Bool) : (adderSum a m c).testBit 7 = (adderResult a m c).msb := by
  rw [adderResult, BitVec.msb_eq_getLsbD_last, BitVec.getLsbD_ofNat]
  rfl

/-- R130's formula for V, read on the sign bits. -/
theorem adderOverflow_iff_msb {a m : Byte} {c : Bool} :
    adderOverflow a m c = true ↔ a.msb = m.msb ∧ (adderResult a m c).msb ≠ a.msb := by
  have hmask (x : Byte) : (x &&& 0x80) ≠ 0 ↔ x.msb = true := by
    revert x; decide
  rw [adderOverflow, bne_iff_ne, hmask]
  simp only [BitVec.msb_and, BitVec.msb_not, BitVec.msb_xor]
  cases a.msb <;> cases m.msb <;> cases (adderResult a m c).msb <;> decide

/-- V says that the signed sum does not fit -128 to 127. -/
theorem adderOverflow_iff_toInt {a m : Byte} {c : Bool} :
    adderOverflow a m c = true ↔
      a.toInt + m.toInt + c.toNat > 127 ∨ a.toInt + m.toInt + c.toNat < -128 := by
  have hc := c.toNat_le
  rw [adderOverflow_iff_msb]
  simp only [BitVec.msb_eq_decide, BitVec.toInt_eq_toNat_cond, adderResult_toNat, adderSum, ne_eq, decide_eq_decide]
  omega

/-! ### The one's complement (R131) -/

theorem xor_ff_toNat (m : Byte) : (m ^^^ 0xFF).toNat = 255 - m.toNat := by
  rw [show (0xFF : Byte) = BitVec.allOnes 8 from rfl, BitVec.xor_allOnes, BitVec.toNat_not]

theorem xor_ff_msb (m : Byte) : (m ^^^ 0xFF).msb = !m.msb := by
  rw [BitVec.msb_xor]
  exact Bool.xor_true _

/-- Adding the complement and the carry subtracts the operand and the borrow. -/
theorem adderSum_xor_ff (a m : Byte) (c : Bool) :
    (adderSum a (m ^^^ 0xFF) c : Int) = (a.toNat : Int) - m.toNat - (1 - c.toNat) + 256 := by
  rw [adderSum, xor_ff_toNat]
  omega

theorem adderResult_xor_ff_toNat (a m : Byte) (c : Bool) :
    ((adderResult a (m ^^^ 0xFF) c).toNat : Int) = ((a.toNat : Int) - m.toNat - (1 - c.toNat)) % 256 := by
  rw [adderResult_toNat, Int.natCast_emod, adderSum_xor_ff]
  exact Int.add_emod_right ..

/-- The carry of the addition says that the subtraction borrows nothing. -/
theorem adderCarry_xor_ff_iff {a m : Byte} {c : Bool} :
    adderCarry a (m ^^^ 0xFF) c = true ↔ (a.toNat : Int) - m.toNat - (1 - c.toNat) ≥ 0 := by
  have hsum := adderSum_xor_ff a m c
  rw [adderCarry_iff]
  omega

theorem adderOverflow_xor_ff_iff {a m : Byte} {c : Bool} :
    adderOverflow a (m ^^^ 0xFF) c = true ↔ a.msb ≠ m.msb ∧ (adderResult a (m ^^^ 0xFF) c).msb ≠ a.msb := by
  rw [adderOverflow_iff_msb, xor_ff_msb, ← Bool.not_eq_not]
  simp

/-- Settles O27: both mnemonics are the adder on the operand read, SBC on its complement. -/
theorem adcAndSbcMatchIntegerArithmetic : Obligations.AdcAndSbcMatchIntegerArithmetic := by
  intro i s s1 t m hread h
  refine ⟨fun hn => ?_, fun hn => ?_⟩
  · rw [exec_reading_next hn nofun (fun _ _ => rfl) hread h]
    exact ⟨adderResult_add_adderCarry .., adderSum_testBit .., adderOverflow_iff_toInt⟩
  · rw [exec_reading_next hn nofun (fun _ _ => rfl) hread h]
    exact ⟨adderResult_xor_ff_toNat .., adderCarry_xor_ff_iff, adderOverflow_xor_ff_iff⟩

end Sys2Proof.Machine
end

section
/-! PROOFS. 42_shift_rotate.md: ASL, LSR, ROL and ROR (R140 to R143). -/

namespace Sys2Proof.Machine

/-- The forms of a read-modify-write: each reads its operand, writes what `f` makes of the byte to the same operand and
sets the flags by `g`. -/
theorem exec_modifying_forms {n : Mnemonic} {f : Byte → Flags → Byte} {g : Byte → Flags → Flags}
    {forms : List (Byte × ModeKind)} (hforms : ∀ form ∈ forms, opcodeForm form.1 = (n, form.2))
    (hn : n ≠ .unimplemented) (hmeaning : ∀ m s, meaning n m s = modifying m s f g) {opcode : Byte} {k : ModeKind}
    (h : (opcode, k) ∈ forms) (b1 b2 : Byte) (s : State) :
    ∃ v s1 s2, s.readOperand (k.withBytes b1 b2) = some (v, s1) ∧
      s1.opWrite (s.resolve (k.withBytes b1 b2)).1 (f v s.flags) = some s2 ∧
      exec (decodeInstr opcode b1 b2) s = .next (s2.setFlags (g v s.flags)) := by
  have hexec := exec_decodeInstr (hforms _ h) hn b1 b2 s
  obtain ⟨t, ht⟩ := exec_completes (decodeInstr opcode b1 b2) s
  obtain ⟨v, s1, s2, hread, hwrite, rfl⟩ := modifying_next ((hmeaning _ s).symm.trans (hexec.symm.trans ht))
  exact ⟨v, s1, s2, hread, hwrite, ht⟩

/-- A byte shifted right has bit 7 clear (R141). -/
theorem ushiftRight_one_getLsbD_seven (v : Byte) : (v >>> 1).getLsbD 7 = false := by
  rw [BitVec.getLsbD_ushiftRight]
  exact BitVec.getLsbD_of_ge v 8 (le_refl 8)

/-- The old carry enters bit 7 (R143). -/
theorem rorResult_getLsbD_seven (v : Byte) (c : Bool) : (rorResult v c).getLsbD 7 = c := by
  have hcarry : (bitByte c <<< 7).getLsbD 7 = c := by cases c <;> rfl
  rw [rorResult, BitVec.getLsbD_or, ushiftRight_one_getLsbD_seven, hcarry, Bool.false_or]

/-- Settles O29: the table's five forms of ASL and of LSR, whose N is the clear bit 7. -/
theorem shiftsMoveOneBitOutToCarry : Obligations.ShiftsMoveOneBitOutToCarry := by
  intro opcode b1 b2 k s
  refine ⟨fun h => ?_, fun h => ?_⟩
  · exact exec_modifying_forms (n := .asl) (by decide) nofun (fun _ _ => by rw [meaning, semAsl]) h b1 b2 s
  · obtain ⟨v, s1, s2, hread, hwrite, hexec⟩ :=
      exec_modifying_forms (n := .lsr) (by decide) nofun (fun _ _ => by rw [meaning, semLsr]) h b1 b2 s
    rw [Flags.setNZ, ushiftRight_one_getLsbD_seven] at hexec
    exact ⟨v, s1, s2, hread, hwrite, hexec⟩

/-- Settles O30: the table's five forms of ROL and of ROR, which writes the old carry to bit 7 and to N. -/
theorem rotatesPassThroughTheCarry : Obligations.RotatesPassThroughTheCarry := by
  intro opcode b1 b2 k s cin
  refine ⟨fun h => ?_, fun h => ?_⟩
  · exact exec_modifying_forms (n := .rol) (by decide) nofun (fun _ _ => by rw [meaning, semRol]) h b1 b2 s
  · obtain ⟨v, s1, s2, hread, hwrite, hexec⟩ :=
      exec_modifying_forms (n := .ror) (by decide) nofun (fun _ _ => by rw [meaning, semRor]) h b1 b2 s
    exact ⟨v, s1, s2, hread, hwrite, rorResult_getLsbD_seven v s.flags.c, hexec⟩

end Sys2Proof.Machine
end

section
/-! PROOFS. 43_incdec.md: INC, DEC, INX, INY, DEX and DEY (R150 to R155). -/

namespace Sys2Proof.Machine

/-- Settles O31: the table's four forms of INC and of DEC, one mnemonic after the other. -/
theorem incAndDecRewriteTheirOperand : Obligations.IncAndDecRewriteTheirOperand := by
  rintro opcode b1 b2 k s f (⟨h, rfl⟩ | ⟨h, rfl⟩)
  · exact exec_modifying_forms (n := .inc) (by decide) nofun (fun _ _ => by rw [meaning, semInc]) h b1 b2 s
  · exact exec_modifying_forms (n := .dec) (by decide) nofun (fun _ _ => by rw [meaning, semDec]) h b1 b2 s

/-- Settles O32: each opcode byte stands for its mnemonic, which loads the index register with the stepped value. -/
theorem indexRegistersStepByOne : Obligations.IndexRegistersStepByOne := by
  intro b1 b2 s nz
  refine ⟨?inx, ?iny, ?dex, ?dey⟩
  case inx => exact exec_decodeInstr (n := .inx) (k := .imp) (by decide) nofun b1 b2 s
  case iny => exact exec_decodeInstr (n := .iny) (k := .imp) (by decide) nofun b1 b2 s
  case dex => exact exec_decodeInstr (n := .dex) (k := .imp) (by decide) nofun b1 b2 s
  case dey => exact exec_decodeInstr (n := .dey) (k := .imp) (by decide) nofun b1 b2 s

end Sys2Proof.Machine
end

section
/-! PROOFS. 44_compare_bit.md: CMP, CPX, CPY and BIT (R160 to R164). -/

namespace Sys2Proof.Machine

/-- Exactly one of "register < operand" and "register >= operand" holds, so N is the negation of C (R164). -/
theorem Flags.compare_n (f : Flags) (reg m : Byte) : (f.compare reg m).n = !(f.compare reg m).c := by
  rw [Flags.compare, ← decide_not, decide_eq_decide]
  exact BitVec.not_le.symm

/-- The forms of an instruction that compares a register with its operand: only C, N and Z are written. -/
theorem exec_compare_forms {n : Mnemonic} {reg : State → Byte} {forms : List (Byte × ModeKind)}
    (hforms : ∀ form ∈ forms, opcodeForm form.1 = (n, form.2)) (hn : n ≠ .unimplemented)
    (hreg : ∀ m s, meaning n m s = reading m s fun v t => t.setFlags (s.flags.compare (reg s) v)) {opcode : Byte}
    {k : ModeKind} (h : (opcode, k) ∈ forms) (b1 b2 : Byte) (s : State) :
    ∃ m s1 t, s.readOperand (k.withBytes b1 b2) = some (m, s1) ∧
      exec (decodeInstr opcode b1 b2) s = .next t ∧
      t = { s1 with flags := { s.flags with
        c := decide ((reg s).toNat ≥ m.toNat), n := decide ((reg s).toNat < m.toNat), z := decide (reg s = m) } } ∧
      t.flags.n = !t.flags.c := by
  obtain ⟨m, s1, hread, hexec⟩ := exec_reading_forms hforms hn hreg h b1 b2 s
  exact ⟨m, s1, _, hread, hexec, rfl, Flags.compare_n s.flags (reg s) m⟩

/-- Settles O33: the table's forms of CMP, CPX and CPY, each the comparison with its own register. -/
theorem compareSetsFlagsFromTheUnsignedOrder : Obligations.CompareSetsFlagsFromTheUnsignedOrder := by
  rintro opcode b1 b2 k s reg (⟨h, rfl⟩ | ⟨h, rfl⟩ | ⟨h, rfl⟩)
  · exact exec_compare_forms (n := .cmp) (by decide) nofun (fun _ _ => by rw [meaning, semCmp]) h b1 b2 s
  · exact exec_compare_forms (n := .cpx) (by decide) nofun (fun _ _ => by rw [meaning, semCpx]) h b1 b2 s
  · exact exec_compare_forms (n := .cpy) (by decide) nofun (fun _ _ => by rw [meaning, semCpy]) h b1 b2 s

/-- Settles O34: the table's two BIT forms, each the bit test of A against the byte it reads (R163). -/
theorem bitTestsWithoutWriting : Obligations.BitTestsWithoutWriting := by
  intro opcode b1 b2 k s h
  exact exec_reading_forms (n := .bit) (by decide) nofun (fun _ _ => by rw [meaning, semBit]) h b1 b2 s

end Sys2Proof.Machine
end

section
/-! PROOFS. 45_branch.md: the eight conditional branches (R170 to R178). -/

namespace Sys2Proof.Machine

/-- A sign-extended displacement adds its signed value, modulo 65536 (R178). -/
theorem add_sext16_toNat (pc : Word) (rel8 : Byte) :
    ((pc + sext16 rel8).toNat : Int) = ((pc.toNat : Int) + rel8.toInt) % 65536 := by
  rw [sext16, BitVec.signExtend, BitVec.toNat_add, BitVec.toNat_ofInt]
  omega

/-- A branch moves PC alone, by its displacement where the condition holds and by nothing where it does not (R178). -/
theorem branch_next (cond : Bool) (rel8 : Byte) (s : State) :
    ∃ t, branch cond rel8 s = .next { s with pc := t } ∧
      (t.toNat : Int) = ((s.pc.toNat : Int) + if cond then rel8.toInt else 0) % 65536 := by
  cases cond with
  | true => exact ⟨s.pc + sext16 rel8, rfl, add_sext16_toNat s.pc rel8⟩
  | false =>
    have hlt := s.pc.isLt
    refine ⟨s.pc, rfl, ?_⟩
    rw [if_neg Bool.false_ne_true]
    omega

/-- An opcode byte whose mnemonic means `branch cond` moves PC alone, by the byte after it. -/
theorem exec_branch_form {opcode : Byte} {n : Mnemonic} (hform : opcodeForm opcode = (n, .rel))
    (hn : n ≠ .unimplemented) {cond : Bool} {rel8 : Byte} {s : State}
    (hmeaning : meaning n (.rel rel8) s = branch cond rel8 s) (b2 : Byte) :
    ∃ t, exec (decodeInstr opcode rel8 b2) s = .next { s with pc := t } ∧
      (t.toNat : Int) = ((s.pc.toNat : Int) + if cond then rel8.toInt else 0) % 65536 := by
  rw [exec_decodeInstr hform hn, ModeKind.withBytes, hmeaning]
  exact branch_next cond rel8 s

/-- Settles O35: each opcode byte of the list stands for the branch on the condition beside it (R170 to R177). -/
theorem branchesAddTheSignedDisplacement : Obligations.BranchesAddTheSignedDisplacement := by
  intro opcode rel8 b2 cond s h
  simp only [List.mem_cons, List.not_mem_nil, or_false, Prod.mk.injEq] at h
  obtain ⟨rfl, rfl⟩ | ⟨rfl, rfl⟩ | ⟨rfl, rfl⟩ | ⟨rfl, rfl⟩ | ⟨rfl, rfl⟩ | ⟨rfl, rfl⟩ | ⟨rfl, rfl⟩ | ⟨rfl, rfl⟩ := h
  · exact exec_branch_form (n := .bcc) (by decide) nofun rfl b2
  · exact exec_branch_form (n := .bcs) (by decide) nofun rfl b2
  · exact exec_branch_form (n := .beq) (by decide) nofun rfl b2
  · exact exec_branch_form (n := .bne) (by decide) nofun rfl b2
  · exact exec_branch_form (n := .bmi) (by decide) nofun rfl b2
  · exact exec_branch_form (n := .bpl) (by decide) nofun rfl b2
  · exact exec_branch_form (n := .bvc) (by decide) nofun rfl b2
  · exact exec_branch_form (n := .bvs) (by decide) nofun rfl b2

end Sys2Proof.Machine
end

section
/-! PROOFS. 46_stack_transfer.md: the pushes and pulls of A and of the status byte (R180 to R183, R190), and the
transfers between registers (R184 to R189). -/

namespace Sys2Proof.Machine

/-! ### A pull after a push, and pushes in a row -/

theorem State.pull_push_sp (s : State) (v : Byte) : (s.push v).pull.2.sp = s.sp := by
  rw [State.pull_sp, State.push_sp, BitVec.sub_add_cancel]

/-- The pull reads the slot the push wrote, where memory is behind it (R50, R51). -/
theorem State.pull_push_fst {s : State} (v : Byte) (hwf : Memory.wf s.mem)
    (hcell : deviceCell s.params.device (stackAddr s.sp) ≠ none) : (s.push v).pull.1 = v := by
  obtain ⟨cell, hc⟩ := Option.ne_none_iff_exists'.1 hcell
  rw [State.pull_fst, State.push_sp, BitVec.sub_add_cancel]
  exact State.peek_memWrite_of_same_cell v hwf hc hc

/-- Each push of a row moves SP down by one, modulo 256 (R50). -/
theorem State.foldl_push_sp (vs : List Byte) (s : State) :
    (vs.foldl State.push s).sp = s.sp - BitVec.ofNat 8 vs.length := by
  induction vs generalizing s with
  | nil => exact (BitVec.sub_zero s.sp).symm
  | cons v vs ih =>
    rw [List.foldl_cons, ih, State.push_sp, List.length_cons, Nat.add_comm, BitVec.ofNat_add]
    exact sub_sub s.sp 1 _

/-- Bit 4 of the status byte is B (R29). -/
theorem Flags.decode_or_bit4 (e : Byte) : Flags.decode (e ||| 0x10) = { Flags.decode e with b := true } := by
  simp [Flags.decode]

/-- PLP's decoding of the byte PHP pushes gives the flags back, B set (R181, R183). -/
theorem Flags.decode_pushed (f : Flags) : Flags.decode f.pushed = { f with b := true } := by
  rw [Flags.pushed, Flags.decode_or_bit4, Flags.decode_encode]

/-- Settles O8: a pull after a push, a row of 256 pushes, and PHP's push pulled by PLP. -/
theorem pullReturnsWhatWasPushed : Obligations.PullReturnsWhatWasPushed := by
  refine ⟨fun s v hwf hcell => ?roundTrip, fun s vs hlen => ?wrap, fun s hwf hcell => ?status⟩
  case roundTrip => exact ⟨State.pull_push_fst v hwf hcell, State.pull_push_sp s v⟩
  case wrap =>
    rw [State.foldl_push_sp, hlen]
    exact BitVec.sub_zero s.sp
  case status =>
    refine ⟨_, _, rfl, rfl, ?_, State.pull_push_sp s _, rfl⟩
    show Flags.decode (s.push s.flags.pushed).pull.1 = _
    rw [State.pull_push_fst _ hwf hcell, Flags.decode_pushed]

/-! ### The instructions -/

/-- Settles O36: each opcode byte stands for its mnemonic's push or pull, and the pushed byte has bit 4 set whatever B
holds. -/
theorem stackInstructionsMoveOneByte : Obligations.StackInstructionsMoveOneByte := by
  intro b1 b2 s v
  refine ⟨?pha, ?php, (State.withB_pushed s (!s.flags.b)).symm, ?pla, ?plp⟩
  case pha => exact exec_decodeInstr (n := .pha) (k := .imp) (by decide) nofun b1 b2 s
  case php => exact exec_decodeInstr (n := .php) (k := .imp) (by decide) nofun b1 b2 s
  case pla => exact exec_decodeInstr (n := .pla) (k := .imp) (by decide) nofun b1 b2 s
  case plp => exact exec_decodeInstr (n := .plp) (k := .imp) (by decide) nofun b1 b2 s

/-- Settles O37: each opcode byte stands for its mnemonic, which loads its destination from its source; TXS alone is
no load and leaves the flags. -/
theorem transfersCopyOneRegister : Obligations.TransfersCopyOneRegister := by
  intro b1 b2 s nz
  refine ⟨?tsx, ?txs, ?tax, ?tay, ?txa, ?tya⟩
  case tsx => exact exec_decodeInstr (n := .tsx) (k := .imp) (by decide) nofun b1 b2 s
  case txs => exact exec_decodeInstr (n := .txs) (k := .imp) (by decide) nofun b1 b2 s
  case tax => exact exec_decodeInstr (n := .tax) (k := .imp) (by decide) nofun b1 b2 s
  case tay => exact exec_decodeInstr (n := .tay) (k := .imp) (by decide) nofun b1 b2 s
  case txa => exact exec_decodeInstr (n := .txa) (k := .imp) (by decide) nofun b1 b2 s
  case tya => exact exec_decodeInstr (n := .tya) (k := .imp) (by decide) nofun b1 b2 s

end Sys2Proof.Machine
end

section
/-! PROOFS. 47_jump_subroutine.md: JMP, JSR and RTS (R200 to R202), and the return of a call on the FLAT device. -/

namespace Sys2Proof.Machine

/-! ### The instructions -/

/-- Settles O38: each opcode byte stands for JMP on its mode, whose target is the operand word, or the word at the
pointer that resolution reads. -/
theorem jmpSetsThePc : Obligations.JmpSetsThePc := by
  intro b1 b2 s
  refine ⟨?abs, _, _, rfl, ?ind⟩
  case abs => exact exec_decodeInstr (n := .jmp) (k := .abs) (by decide) nofun b1 b2 s
  case ind => exact exec_decodeInstr (n := .jmp) (k := .ind) (by decide) nofun b1 b2 s

/-- Settles O39: the opcode byte stands for JSR on an absolute target, and a word's push is its high byte's and then
its low byte's. -/
theorem jsrPushesTheAddressOfItsLastByte : Obligations.JsrPushesTheAddressOfItsLastByte :=
  exec_decodeInstr (n := .jsr) (k := .abs) (by decide) nofun

/-- Settles O40: the opcode byte stands for RTS, and a word's pull is its low byte's and then its high byte's. -/
theorem rtsResumesAfterThePulledAddress : Obligations.RtsResumesAfterThePulledAddress :=
  exec_decodeInstr (n := .rts) (k := .imp) (by decide) nofun

/-! ### A call and its return -/

/-- On FLAT, a push and its pull leave the stack below it: the next pull gives what it gave before them. -/
theorem State.pull_pull_push_fst_flat {s : State} (v : Byte) (hflat : s.params.device = []) (hwf : Memory.wf s.mem) :
    (s.push v).pull.2.pull.1 = s.pull.1 := by
  have hne : stackAddr s.sp ≠ stackAddr (s.sp + 1) := fun h => by simpa using stackAddr_inj.1 h
  rw [State.pull_fst, State.pull_push_sp, State.peek_flat (s := (s.push v).pull.2) hflat, State.pull_mem,
    State.push_mem, read_memAfterPoke hwf, hflat, deviceCell_flat, if_neg fun h => hne (Option.some.inj h),
    State.pull_fst, State.peek_flat hflat]

/-- On FLAT, a pull gives the byte last pushed. -/
theorem State.pull_push_fst_flat {s : State} (v : Byte) (hflat : s.params.device = []) (hwf : Memory.wf s.mem) :
    (s.push v).pull.1 = v := by
  have hcell : deviceCell s.params.device (stackAddr s.sp) ≠ none := by simp [hflat]
  exact State.pull_push_fst v hwf hcell

/-- On FLAT, a word's pull gives the word last pushed. -/
theorem State.pullWord_pushWord_fst_flat {s : State} (w : Word) (hflat : s.params.device = [])
    (hwf : Memory.wf s.mem) : (s.pushWord w).pullWord.1 = w := by
  have hflat' : (s.push (hiByte w)).params.device = [] := hflat
  have hwf' : Memory.wf (s.push (hiByte w)).mem := wf_memAfterPoke hwf
  calc (s.pushWord w).pullWord.1
      = hiLo ((s.push (hiByte w)).push (loByte w)).pull.2.pull.1 ((s.push (hiByte w)).push (loByte w)).pull.1 := rfl
    _ = hiLo (s.push (hiByte w)).pull.1 (loByte w) := by
      rw [State.pull_pull_push_fst_flat _ hflat' hwf', State.pull_push_fst_flat _ hflat' hwf']
    _ = hiLo (hiByte w) (loByte w) := by rw [State.pull_push_fst_flat _ hflat hwf]
    _ = w := hiLo_bytes w

/-- A jump does not change the word a pull gives. -/
theorem State.pullWord_setPc_fst (s : State) (w : Word) : (s.setPc w).pullWord.1 = s.pullWord.1 := rfl

/-- JSR's arm of `exec`: an absolute target is resolved without access. -/
theorem exec_jsr (target : Word) (s : State) :
    exec (.jsr target) s = .next ((s.pushWord (s.pc - 1)).setPc target) := rfl

/-- RTS's arm of `exec`. -/
theorem exec_rts (s : State) : exec .rts s = .next (s.pullWord.2.setPc (s.pullWord.1 + 1)) := rfl

/-- Settles O41: RTS pulls the word JSR pushed, `PC - 1`, and adds the 1 back. -/
theorem jsrThenRtsReturnsAfterTheCall : Obligations.JsrThenRtsReturnsAfterTheCall := by
  intro s target hflat hwf
  refine ⟨_, _, exec_jsr target s, State.setPc_pc _ _, exec_rts _, ?pc, ?sp, ?flags, ?a, ?x, ?y⟩
  case pc =>
    rw [State.setPc_pc, State.pullWord_setPc_fst, State.pullWord_pushWord_fst_flat _ hflat hwf,
      BitVec.sub_add_cancel]
  case sp =>
    rw [State.setPc_sp, State.pullWord_sp, State.setPc_sp, State.pushWord_sp, BitVec.sub_add_cancel,
      BitVec.sub_add_cancel]
  case flags => simp only [State.setPc_flags, State.pullWord_flags, State.pushWord_flags]
  case a => simp only [State.setPc_a, State.pullWord_a, State.pushWord_a]
  case x => simp only [State.setPc_x, State.pullWord_x, State.pushWord_x]
  case y => simp only [State.setPc_y, State.pullWord_y, State.pushWord_y]

end Sys2Proof.Machine
end

section
/-! PROOFS. 48_brk_rti.md and 60_exceptions.md: BRK's entry sequence (R210, R302), RTI's return (R211, R306), and what
an executed BRK and the RTI of its handler leave on the FLAT device (R212). -/

namespace Sys2Proof.Machine

/-! ### The instructions -/

/-- BRK's arm of `exec`. -/
theorem exec_brk (s : State) : exec .brk s = .next (s.interruptEntry s.params.irqVector) := rfl

/-- The five accesses of the entry sequence, newest first: the vector's two bytes, then the three pushes (R302). -/
theorem State.interruptEntry_history (s : State) (vector : Word) :
    (s.interruptEntry vector).history =
      .write (stackAddr (s.sp - 2)) s.flags.pushed :: .write (stackAddr (s.sp - 1)) (loByte s.pc) ::
      .write (stackAddr s.sp) (hiByte s.pc) ::
      .read (vector + 1) ((s.memRead vector).2.peek (vector + 1)) :: .read vector (s.peek vector) :: s.history := by
  have hsp : s.sp - 2 = s.sp - 1 - 1 := (BitVec.sub_sub s.sp 1 1).symm
  rw [hsp]
  rfl

/-- Settles O42: the opcode byte stands for BRK, and the word at the vector is the two bytes the history records. -/
theorem brkEntersTheHandler : Obligations.BrkEntersTheHandler := by
  intro b1 b2 s
  have hexec := exec_decodeInstr (opcode := 0x00) (n := .brk) (k := .imp) (by decide) nofun b1 b2 s
  refine ⟨_, _, _, hexec, rfl, s.interruptEntry_history s.params.irqVector, rfl, ?sp⟩
  case sp =>
    rw [State.interruptEntry_sp, BitVec.sub_sub, BitVec.sub_sub]
    rfl

/-- Settles O43: the opcode byte stands for RTI, whose last two pulls leave the flags decoded from the first byte. -/
theorem rtiRestoresFlagsAndPc : Obligations.RtiRestoresFlagsAndPc :=
  exec_decodeInstr (n := .rti) (k := .imp) (by decide) nofun

/-! ### The stack after the entry sequence, on FLAT -/

/-- On FLAT, what is read depends on the cells alone, not on the history. -/
theorem State.peek_congr_flat {s t : State} (hflat : s.params.device = []) (hm : t.mem = s.mem)
    (hp : t.params = s.params) (addr : Word) : t.peek addr = s.peek addr := by
  rw [State.peek_flat hflat, State.peek_flat (hp ▸ hflat), hm]

/-- On FLAT, a push is read back at its slot, and nowhere else. -/
theorem State.peek_push_flat {s : State} (v : Byte) (hflat : s.params.device = []) (hwf : Memory.wf s.mem)
    (addr : Word) : (s.push v).peek addr = if stackAddr s.sp = addr then v else s.peek addr := by
  rw [State.push_eq, State.peek_setSp, State.peek_memWrite_of_cell hwf (cell := addr) (by rw [hflat, deviceCell_flat]),
    hflat, deviceCell_flat]
  simp only [Option.some.injEq]

/-- On FLAT, a word and a byte pushed after it are found in their three slots, for these are distinct. -/
theorem State.peek_pushWord_push_flat {s : State} (w : Word) (v : Byte) (hflat : s.params.device = [])
    (hwf : Memory.wf s.mem) :
    ((s.pushWord w).push v).peek (stackAddr s.sp) = hiByte w ∧
      ((s.pushWord w).push v).peek (stackAddr (s.sp - 1)) = loByte w ∧
      ((s.pushWord w).push v).peek (stackAddr (s.sp - 1 - 1)) = v := by
  have hwf₁ : Memory.wf (s.push (hiByte w)).mem := wf_memAfterPoke hwf
  have hwf₂ : Memory.wf (s.pushWord w).mem := wf_memAfterPoke hwf₁
  have hne (p : Byte) : p - 1 ≠ p := by simp
  have hne₂ : s.sp - 1 - 1 ≠ s.sp := by rw [BitVec.sub_sub]; simp
  have hpeek (addr : Word) : ((s.pushWord w).push v).peek addr =
      if stackAddr (s.sp - 1 - 1) = addr then v else if stackAddr (s.sp - 1) = addr then loByte w
      else if stackAddr s.sp = addr then hiByte w else s.peek addr := by
    rw [State.peek_push_flat (s := s.pushWord w) v hflat hwf₂, State.pushWord_sp, State.pushWord_eq,
      State.peek_push_flat (s := s.push (hiByte w)) _ hflat hwf₁, State.push_sp, State.peek_push_flat _ hflat hwf]
  simp only [hpeek, stackAddr_inj, hne, hne₂, if_true, if_false, and_self]

/-- On FLAT, the entry sequence leaves PC high, PC low and the status byte in its three slots. -/
theorem State.peek_interruptEntry_flat {s : State} (vector : Word) (hflat : s.params.device = [])
    (hwf : Memory.wf s.mem) :
    (s.interruptEntry vector).peek (stackAddr s.sp) = hiByte s.pc ∧
      (s.interruptEntry vector).peek (stackAddr (s.sp - 1)) = loByte s.pc ∧
      (s.interruptEntry vector).peek (stackAddr (s.sp - 1 - 1)) = s.flags.pushed :=
  State.peek_pushWord_push_flat (s := (s.memRead16 vector).2) s.pc s.flags.pushed hflat hwf

theorem State.peek_pull_flat {s : State} (hflat : s.params.device = []) (addr : Word) :
    s.pull.2.peek addr = s.peek addr := State.peek_congr_flat hflat s.pull_mem s.pull_params addr

/-- On FLAT, RTI takes PC from the second and the third byte above SP, the low byte first. -/
theorem State.returnFromInterrupt_pc_flat {s : State} (hflat : s.params.device = []) :
    s.returnFromInterrupt.pc = hiLo (s.peek (stackAddr (s.sp + 1 + 1 + 1))) (s.peek (stackAddr (s.sp + 1 + 1))) := by
  simp only [State.returnFromInterrupt_eq, State.setPc_pc, State.pullWord_fst, State.setFlags_sp, State.pull_sp,
    State.peek_pull_flat (s := s.pull.2.setFlags _) hflat, State.peek_setFlags, State.peek_pull_flat hflat]

/-- On FLAT, RTI undoes the entry sequence when the memory and SP are as that left them: PC and the flags are those
saved, B set (R212, R306). -/
theorem State.returnFromInterrupt_of_entry_flat {s t : State} {vector : Word} (hflat : s.params.device = [])
    (hwf : Memory.wf s.mem) (hm : t.mem = (s.interruptEntry vector).mem) (hp : t.params = s.params)
    (hsp : t.sp = (s.interruptEntry vector).sp) :
    t.returnFromInterrupt.pc = s.pc ∧ t.returnFromInterrupt.sp = s.sp ∧
      t.returnFromInterrupt.flags = { s.flags with b := true } := by
  have hp' : t.params = (s.interruptEntry vector).params := by rw [State.interruptEntry_params, hp]
  have hpeek := State.peek_congr_flat (by rw [State.interruptEntry_params, hflat]) hm hp'
  obtain ⟨hhi, hlo, hstatus⟩ := State.peek_interruptEntry_flat vector hflat hwf
  rw [State.interruptEntry_sp] at hsp
  refine ⟨?pc, ?sp, ?flags⟩
  case pc =>
    rw [State.returnFromInterrupt_pc_flat (hp ▸ hflat), hsp, BitVec.sub_add_cancel, BitVec.sub_add_cancel,
      BitVec.sub_add_cancel, hpeek, hpeek, hhi, hlo, hiLo_bytes]
  case sp => rw [State.returnFromInterrupt_sp, hsp, BitVec.sub_add_cancel, BitVec.sub_add_cancel, BitVec.sub_add_cancel]
  case flags =>
    rw [State.returnFromInterrupt_flags, hsp, BitVec.sub_add_cancel, hpeek, hstatus, Flags.decode_pushed]

/-! ### The two steps -/

/-- A step whose opcode byte is RTI's returns, past that byte. -/
theorem step_of_rti {s : State} (hr : s.run = .running) (hop : s.peek s.pc = 0x40) :
    step s = .next s.nextByte.2.returnFromInterrupt := by
  have hne : s.peek s.pc ≠ breakOpcode := by rw [hop]; decide
  rw [step_of_runs hr (State.breakHalts_of_ne hne), State.afterOpcode_of_ne hne, hop]
  rfl

/-! The opcode read of a step moves PC past the byte and leaves the other registers and the flags (R69). -/

@[simp] theorem State.afterOpcode_pc (s : State) : s.afterOpcode.pc = s.pc + 1 := rfl
@[simp] theorem State.afterOpcode_sp (s : State) : s.afterOpcode.sp = s.sp := by
  simp only [State.afterOpcode, State.setPc_sp, State.countBreak]
  split <;> rfl
@[simp] theorem State.afterOpcode_a (s : State) : s.afterOpcode.a = s.a := by
  simp only [State.afterOpcode, State.setPc_a, State.countBreak]
  split <;> rfl
@[simp] theorem State.afterOpcode_x (s : State) : s.afterOpcode.x = s.x := by
  simp only [State.afterOpcode, State.setPc_x, State.countBreak]
  split <;> rfl
@[simp] theorem State.afterOpcode_y (s : State) : s.afterOpcode.y = s.y := by
  simp only [State.afterOpcode, State.setPc_y, State.countBreak]
  split <;> rfl
@[simp] theorem State.afterOpcode_flags (s : State) : s.afterOpcode.flags = s.flags := by
  simp only [State.afterOpcode, State.setPc_flags, State.countBreak]
  split <;> rfl

/-- A step whose 0x00 does not halt executes BRK, past that byte (R70). -/
theorem step_of_break {s : State} (hr : s.run = .running) (hop : s.peek s.pc = breakOpcode)
    (hmax : s.breakCount + 1 ≤ s.params.maxBreakCount) :
    step s = .next (s.afterOpcode.interruptEntry s.params.irqVector) := by
  rw [(breakCounterHaltsOrRunsBrk s hr).2.1 hop hmax, exec_brk, State.afterOpcode_of_break hop]
  rfl

/-- The entry sequence changes only what memory holds at its three stack slots, on FLAT (R302). -/
theorem State.interruptEntry_memByte_flat {s : State} {addr : Word} (vector : Word) (hflat : s.params.device = [])
    (hwf : Memory.wf s.mem) (h0 : addr ≠ stackAddr s.sp) (h1 : addr ≠ stackAddr (s.sp - 1))
    (h2 : addr ≠ stackAddr (s.sp - 2)) : (s.interruptEntry vector).memByte addr = s.memByte addr := by
  refine State.memByte_of_pokedAt hwf (s.interruptEntry_params vector) (s.interruptEntry_pokedAt vector) ?_
  simpa [hflat] using ⟨h0, h1, h2⟩

/-- Settles O44: the RTI finds the memory and SP as the entry sequence left them. -/
theorem brkThenRtiRoundTrip : Obligations.BrkThenRtiRoundTrip := by
  intro s s1 hflat hwf hr hop hmax hstep hrti
  rw [step_of_break hr hop hmax] at hstep
  obtain rfl := Host.Outcome.next.inj hstep
  have hflat' : s.afterOpcode.params.device = [] := by rw [State.afterOpcode_params, hflat]
  have hwf' : Memory.wf s.afterOpcode.mem := by rwa [State.afterOpcode_mem]
  obtain ⟨hpc, hsp, hflags⟩ := State.returnFromInterrupt_of_entry_flat
    (s := s.afterOpcode) (vector := s.params.irqVector)
    (t := (s.afterOpcode.interruptEntry s.params.irqVector).nextByte.2) hflat' hwf' (by simp) (by simp) (by simp)
  refine ⟨_, step_of_rti (by simp [hr]) hrti, ?_⟩
  rw [hpc, hsp, hflags]
  refine ⟨s.afterOpcode_pc, s.afterOpcode_sp, by simp, by simp, by simp, by rw [State.afterOpcode_flags],
    fun addr h0 h1 h2 => ?memory⟩
  case memory =>
    calc _ = (s.afterOpcode.interruptEntry s.params.irqVector).memByte addr :=
          State.memByte_congr (by simp) (by simp) addr
      _ = s.afterOpcode.memByte addr :=
          State.interruptEntry_memByte_flat _ hflat' hwf' (by simpa [stackAddr_eq] using h0)
            (by simpa [stackAddr_eq] using h1) (by simpa [stackAddr_eq] using h2)
      _ = s.memByte addr := State.memByte_congr s.afterOpcode_mem s.afterOpcode_params addr

end Sys2Proof.Machine
end

section
/-! PROOFS. 49_flag_nop_load_store.md: the flag instructions and NOP (R220 to R227), the loads (R228 to R230) and the
stores (R231 to R233). -/

namespace Sys2Proof.Machine

/-- Settles O45: each opcode byte stands for its mnemonic, which writes its one flag; NOP's meaning is the state
itself. -/
theorem flagInstructionsWriteOneFlag : Obligations.FlagInstructionsWriteOneFlag := by
  intro b1 b2 s
  refine ⟨?clc, ?cld, ?cli, ?clv, ?sec, ?sed, ?sei, ?nop⟩
  case clc => exact exec_decodeInstr (n := .clc) (k := .imp) (by decide) nofun b1 b2 s
  case cld => exact exec_decodeInstr (n := .cld) (k := .imp) (by decide) nofun b1 b2 s
  case cli => exact exec_decodeInstr (n := .cli) (k := .imp) (by decide) nofun b1 b2 s
  case clv => exact exec_decodeInstr (n := .clv) (k := .imp) (by decide) nofun b1 b2 s
  case sec => exact exec_decodeInstr (n := .sec) (k := .imp) (by decide) nofun b1 b2 s
  case sed => exact exec_decodeInstr (n := .sed) (k := .imp) (by decide) nofun b1 b2 s
  case sei => exact exec_decodeInstr (n := .sei) (k := .imp) (by decide) nofun b1 b2 s
  case nop => exact exec_decodeInstr (n := .nop) (k := .imp) (by decide) nofun b1 b2 s

/-! ### Loads -/

/-- The forms of an instruction that loads a register with its operand: N and Z follow the byte, and the other flags
are those of before the read. -/
theorem exec_load_forms {n : Mnemonic} {setReg : State → Byte → State} {forms : List (Byte × ModeKind)}
    (hforms : ∀ form ∈ forms, opcodeForm form.1 = (n, form.2)) (hn : n ≠ .unimplemented)
    (hload : ∀ m s, meaning n m s = reading m s fun v t => (setReg t v).setFlags (t.flags.setNZ v))
    {opcode : Byte} {k : ModeKind} (h : (opcode, k) ∈ forms) (b1 b2 : Byte) (s : State) :
    ∃ m s1, s.readOperand (k.withBytes b1 b2) = some (m, s1) ∧
      exec (decodeInstr opcode b1 b2) s = .next ((setReg s1 m).setFlags (s.flags.setNZ m)) := by
  obtain ⟨m, s1, hread, hexec⟩ := exec_reading_forms hforms hn hload h b1 b2 s
  rw [State.readOperand_flags hread] at hexec
  exact ⟨m, s1, hread, hexec⟩

/-- Settles O46: the table's eight forms of LDA and five of LDX and of LDY. -/
theorem loadsCopyTheOperand : Obligations.LoadsCopyTheOperand := by
  intro opcode b1 b2 k s nz
  refine ⟨fun h => ?lda, fun h => ?ldx, fun h => ?ldy⟩
  case lda => exact exec_load_forms (n := .lda) (setReg := State.setA) (by decide) nofun (fun _ _ => rfl) h b1 b2 s
  case ldx => exact exec_load_forms (n := .ldx) (setReg := State.setX) (by decide) nofun (fun _ _ => rfl) h b1 b2 s
  case ldy => exact exec_load_forms (n := .ldy) (setReg := State.setY) (by decide) nofun (fun _ _ => rfl) h b1 b2 s

/-! ### Stores -/

/-- Only the accumulator mode resolves to A (R104 to R116). -/
theorem State.resolve_withBytes_ne_acc {k : ModeKind} (hk : k ≠ .acc) (b1 b2 : Byte) (s : State) :
    (s.resolve (k.withBytes b1 b2)).1 ≠ .acc := by
  cases k with
  | acc => exact absurd rfl hk
  | _ => nofun

/-- The forms of an instruction that stores a register: one write at the address its mode resolves to. -/
theorem exec_storing_forms {n : Mnemonic} {reg : State → Byte} {forms : List (Byte × ModeKind)}
    (hforms : ∀ form ∈ forms, opcodeForm form.1 = (n, form.2) ∧ form.2 ≠ .acc) (hn : n ≠ .unimplemented)
    (hstore : ∀ m s, meaning n m s = storing m (reg s) s) {opcode : Byte} {k : ModeKind}
    (h : (opcode, k) ∈ forms) (b1 b2 : Byte) (s : State) :
    ∃ ea s1, s.resolve (k.withBytes b1 b2) = (.mem ea, s1) ∧
      exec (decodeInstr opcode b1 b2) s = .next (s1.memWrite ea (reg s)) := by
  obtain ⟨hform, hacc⟩ := hforms _ h
  have hexec := exec_decodeInstr hform hn b1 b2 s
  obtain ⟨t, ht⟩ := exec_completes (decodeInstr opcode b1 b2) s
  have hwrite := storing_next ((hstore _ s).symm.trans (hexec.symm.trans ht))
  obtain ⟨ho, -⟩ | ⟨ea, hea, rfl⟩ := State.opWrite_cases hwrite
  · exact absurd ho (State.resolve_withBytes_ne_acc hacc b1 b2 s)
  · exact ⟨ea, _, Prod.ext hea rfl, ht⟩

/-- Settles O47: the table's seven forms of STA and three of STX and of STY. -/
theorem storesWriteTheirRegister : Obligations.StoresWriteTheirRegister := by
  rintro opcode b1 b2 k s reg (⟨h, rfl⟩ | ⟨h, rfl⟩ | ⟨h, rfl⟩)
  · exact exec_storing_forms (n := .sta) (by decide) nofun (fun _ _ => rfl) h b1 b2 s
  · exact exec_storing_forms (n := .stx) (by decide) nofun (fun _ _ => rfl) h b1 b2 s
  · exact exec_storing_forms (n := .sty) (by decide) nofun (fun _ _ => rfl) h b1 b2 s

end Sys2Proof.Machine
end

section
/-! PROOFS. 60_exceptions.md R300 and 70_reset_and_hazards.md R400: every step of a running machine completes, and
launch takes every value from the host. -/

namespace Sys2Proof.Machine

/-- Settles O18: the fetch halts the engine, or the instruction it decoded answers a next state. -/
theorem everyRunningStepCompletes : Obligations.EveryRunningStepCompletes := by
  intro s hr
  cases hb : s.breakHalts (s.peek s.pc) with
  | true => exact ⟨_, step_of_halts hr hb⟩
  | false =>
    rw [step_of_runs hr hb]
    exact exec_completes _ _

/-- Settles O1: launch builds the state of its arguments, and reset is a launch on the FLAT device. -/
theorem launchTakesEveryValueFromTheHost : Obligations.LaunchTakesEveryValueFromTheHost := by
  refine ⟨fun a x y sp pc f m p => ?launch, ⟨0, 0, 0, 0, 0, _, [], rfl⟩, rfl, rfl, deviceCell_flat⟩
  case launch => exact ⟨rfl, rfl, rfl, rfl, rfl, rfl, rfl, rfl, rfl, rfl⟩

end Sys2Proof.Machine
end
